-- ==== Sys2Proof/Word.lean ====
section
/-! DEFINITION. The machine's words: the things the manual shifts, masks, wraps or shows as bits. -/

namespace Sys2Proof

/-- One byte of a telegram, of a view or of a label block. -/
abbrev Byte := BitVec 8

/-- A local position: 0 to 4,294,967,295 ticks, wrapping to 0 (R2). -/
abbrev Pos := BitVec 32

/-- A counter that runs from 0 to 4,294,967,295 and wraps to 0 (R40, R63, R174, R188, R198). -/
abbrev Count32 := BitVec 32

/-- A set of hold factors, one bit each in the order of Table 16. -/
abbrev CauseSet := BitVec 16

/-- A roll cause set, one bit each in the order of Table 16. -/
abbrev RollCauses := BitVec 16

/-- A set of stations: bit s − 1 stands for station s (Table 58). -/
abbrev StationSet := BitVec 32

end Sys2Proof
end

