-- ==== Sys2Proof/Config.lean ====
section
/-! DEFINITION. The configuration image (Tables 5, 7, 19, 24, 28, 31, 35, 40, 46, 50, 56) and the free values. -/

namespace Sys2Proof

/-- Table 1 and Table 16: the role of a node. -/
inductive Role where
  | key | print | emboss | shade | rewind | label
  deriving DecidableEq, Repr

/-- R19: the bit rates of the line link. -/
inductive BitRate where
  | kbit250 | kbit500 | mbit1
  deriving DecidableEq, Repr

/-- Table 5: the phase order that means forward web travel. -/
inductive EncoderSense where
  | aLeads | bLeads
  deriving DecidableEq, Repr

/-- Table 28: the direction sense of the compensator. -/
inductive DirSense where
  | normal | inverted
  deriving DecidableEq, Repr

/-- Table 40: the clear mode of the Hold Unit. -/
inductive ClearMode where
  | manual | quiet | quietAtRoll
  deriving DecidableEq, Repr

/-- Table 24: the match type of a pattern. -/
inductive MatchType where
  | straight | halfDrop | free
  deriving DecidableEq, Repr

/-- A shade triple in hundredths: lightness, red–green, yellow–blue (section 2.8). -/
structure Triple where
  lightness : Int
  redGreen : Int
  yellowBlue : Int
  deriving DecidableEq, Repr

/-- One entry of the pattern table (Table 24). Tolerances are in hundredths. -/
structure Pattern where
  code : Nat
  nominal : Nat
  windowMin : Nat
  windowMax : Nat
  colourCount : Nat
  matchType : MatchType
  /-- colour offsets of slots 1 to 7, in that order -/
  colourOffsets : List Int
  embossOffset : Option Int
  cutOffset : Int
  minRoll : Nat
  tolerance : Triple
  edgeTolerance : Int
  deriving DecidableEq, Repr

/-- The fields of the configuration image, with the defaults the manual gives. -/
structure Config where
  -- Table 56
  station : Nat
  role : Role
  colourSlot : Nat := 0
  bitRate : BitRate := .kbit250
  silence : Nat := 400
  -- Table 5
  encoderSense : EncoderSense := .aLeads
  numerator : Nat := 1
  denominator : Nat := 1
  backlash : Nat := 500
  speedThreshold : Nat := 10
  -- Table 7 (the colour slot and the capture range code are shared with Table 28)
  tallyStart : Nat := 80
  tallyPitch : Nat := 20
  captureCode : Nat := 4
  eyeToNip : Nat := 0
  -- Table 19
  keyToEye : Nat := 0
  spliceDistance : Nat := 20000
  -- section 4.1
  patterns : List Pattern := []
  registerTolerance : Nat := 10
  -- Table 28
  lockWindow : Nat := 5
  unlockWindow : Nat := 15
  captureGain : Nat := 8
  lockReduction : Nat := 1
  maxCorrection : Nat := 200
  compensatorScale : Nat := 1000
  stepRate : Nat := 2000
  dirSense : DirSense := .normal
  printToEye : Nat := 0
  -- Table 31
  actuationTime : Nat := 300
  spliceMargin : Nat := 3000
  -- Table 35: left lightness, red–green, yellow–blue, then right
  gains : List Nat := [2500, 2500, 2500, 2500, 2500, 2500]
  tiles : List Int := [9500, 0, 0, 9500, 0, 0]
  calibrationInterval : Nat := 2000
  driftK : Nat := 8
  -- Table 40
  factorMask : CauseSet := 0x3FF
  clearMode : ClearMode := .quiet
  quietQ : Nat := 4
  -- Table 46
  eyeToKnife : Nat := 0
  wasteBefore : Nat := 1
  wasteAfter : Nat := 1
  shortMin : Nat := 3
  -- Table 50, in seconds
  conveyorLimit : Nat := 120
  deriving DecidableEq, Repr

/-- A field of the image that holds a code of a table, and may therefore hold a code the table lacks. -/
inductive CodedField where
  | role | bitRate | encoderSense | dirSense | clearMode | matchType
  deriving DecidableEq, Repr

/-- What one reading of the configuration memory gives (R189): the bytes from the first one on; the fields they
hold (their byte layout is outside the manual, log entry 6); which coded fields hold a code their table lacks; and
the bytes of the pattern table and register tolerance that the signature is taken over. -/
structure Image where
  bytes : List Byte
  fields : Config
  undefinedCodes : List CodedField
  signatureBytes : List Byte
  deriving DecidableEq, Repr

/-- A number the manual does not state (log entry 4). -/
opaque Config.freeNat : Nat → Nat

/-- A signed number the manual does not state (log entry 4). -/
opaque Config.freeInt : Nat → Int

/-- A byte of a view the manual does not state (log entry 4). -/
opaque Config.freeByte : Nat → Byte

end Sys2Proof
end

