-- ==== Sys2Proof/Syntax.lean ====
section
/-! DEFINITION. The telegrams of the line link (Tables 14 to 16) and the commands of the node: one constructor of
`Instr` for each row of the operation table. -/

namespace Sys2Proof

/-- Table 16: reset cause and DOWN cause. -/
inductive ResetCause where
  | power | pin | supply | rejoin
  deriving DecidableEq, Repr

/-- Table 16: request kind. -/
inductive RequestKind where
  | newJob | closeBatch | closeRoll | holdOn | clearHold
  deriving DecidableEq, Repr

/-- Table 16: register loop state. -/
inductive LoopState where
  | opened | far | capture | locked
  deriving DecidableEq, Repr

/-- Table 16: nip coverage. -/
inductive Coverage where
  | full | partly | none
  deriving DecidableEq, Repr

/-- Table 16: shade grade. -/
inductive ShadeGrade where
  | ok | edge | absent | saturated
  deriving DecidableEq, Repr

/-- Table 16: BATCH reason (Table 38). -/
inductive BatchReason where
  | start | drift | job | operator | calibrationStep | restart
  deriving DecidableEq, Repr

/-- Table 16: piece kind. -/
inductive PieceKind where
  | roll | waste
  deriving DecidableEq, Repr

/-- Table 16: grade of a piece (Table 47). -/
inductive Grade where
  | first | short | hold | waste
  deriving DecidableEq, Repr

/-- Table 16: outcome of a LABELLED. -/
inductive LabelOutcome where
  | labelled | divertedWaste | divertedHold | notLabelled | unknownRoll | missing
  deriving DecidableEq, Repr

/-- A job record (chapter Jobs and Patterns). -/
structure JobRecord where
  number : Nat
  pattern : Nat
  first : Nat
  deriving DecidableEq, Repr

/-- Who sent a frame, and its restate flag (the header of Table 15). -/
structure Origin where
  sender : Nat
  restate : Bool
  deriving DecidableEq, Repr

/-- Table 15, JOIN. -/
structure JoinPayload where
  role : Role
  slot : Nat
  cause : ResetCause
  signature : Nat
  deriving DecidableEq, Repr

/-- Table 15, RESUME. A newest number of 0 stands for none. -/
structure ResumePayload where
  role : Role
  slot : Nat
  newestRepeat : Nat
  newestRoll : Nat
  newestBatch : Nat
  job : Option JobRecord
  deriving DecidableEq, Repr

/-- Table 15, JOB, without its outcome. -/
structure JobPayload where
  number : Nat
  pattern : Nat
  first : Nat
  requester : Nat
  deriving DecidableEq, Repr

/-- Table 15, REPEAT. -/
structure RepeatPayload where
  number : Nat
  length : Nat
  job : Nat
  splice : Option Nat
  deriving DecidableEq, Repr

/-- Table 15, REGISTER. -/
structure RegisterPayload where
  number : Nat
  slot : Nat
  state : LoopState
  steps : Int
  error : Option Int
  nip : Option (Nat × Coverage)
  deriving DecidableEq, Repr

/-- Table 15, SHADE. -/
structure ShadePayload where
  number : Nat
  grade : ShadeGrade
  left : Option Triple
  right : Option Triple
  deriving DecidableEq, Repr

/-- Table 15, BATCH, without its action and reference. -/
structure BatchPayload where
  code : Nat
  first : Nat
  reason : BatchReason
  deriving DecidableEq, Repr

/-- Table 15, ROLL: the content of a roll list entry. -/
structure RollContent where
  number : Nat
  kind : PieceKind
  first : Nat
  count : Nat
  batch : Nat
  job : Nat
  grade : Grade
  causes : RollCauses
  holdCauses : CauseSet
  length : Nat
  deriving DecidableEq, Repr

/-- What a telegram with an undefined code carries (R34): the kind code and, for a REGISTER or a SHADE, the repeat number
(R195; log entry 45). -/
structure UndefinedPayload where
  kind : Nat
  number : Nat
  deriving DecidableEq, Repr

/-- The content of a completed frame: its kind and payload (Tables 14 and 15). `undefined` is a telegram one of
whose fields holds a code that Table 16 does not define (R34). -/
inductive Telegram where
  | join (p : JoinPayload)
  | resume (p : ResumePayload)
  | present
  | down (cause : ResetCause)
  | request (kind : RequestKind) (arg : Nat)
  | jobTaken (p : JobPayload)
  | jobRefused (p : JobPayload)
  | repeat_ (p : RepeatPayload)
  | register (p : RegisterPayload)
  | shade (p : ShadePayload)
  | batchOpened (p : BatchPayload)
  | batchFixed (p : BatchPayload) (reference : Triple)
  | holdSet (number : Nat) (causes : CauseSet)
  | holdClear (number : Nat) (causes : CauseSet)
  | roll (p : RollContent)
  | labelled (number : Nat) (outcome : LabelOutcome)
  | undefined (p : UndefinedPayload)
  deriving DecidableEq, Repr

/-- The steps in which a run or a count can reach its limit. A command whose row names such a moment (LOCK_RUN_REACHED,
TELEGRAM_DROPPED …) carries the step that brings it about (log entry 1). -/
inductive Occasion where
  | encoder (a b : Bool)
  | trailingEdge
  | embossIndex
  | registerWindowEnd
  | trackerWindowEnd
  | tallySpanEnd
  | cylinderIndex
  | frameVoided (sender : Nat)
  | frameCutShort
  | completed (o : Origin) (t : Telegram)
  deriving DecidableEq, Repr

/-- The six converter codes of one shade sample: left lightness, red–green, yellow–blue, then right (R118). -/
structure ShadeCodes where
  l0 : Nat
  l1 : Nat
  l2 : Nat
  r0 : Nat
  r1 : Nat
  r2 : Nat
  deriving DecidableEq, Repr

/-- The commands of the node: the rows of the operation table. -/
inductive Instr where
  -- Web travel, marks and position triggers
  /-- ENCODER_COUNT: the levels of ENCA and ENCB after the transition -/
  | encoderCount (a b : Bool)
  | webReversedOnset (a b : Bool)
  | webReversedEnd (a b : Bool)
  | speedInterval
  | standstillTimer
  | markLeadingEdge
  | markTrailingEdge
  | registerWindowEnd
  | openRunReached (by_ : Occasion)
  | lockRunReached (by_ : Occasion)
  | unlockRunReached (by_ : Occasion)
  | absentRunReached (by_ : Occasion)
  | settleCountZero (by_ : Occasion)
  | stepTrainCompletion
  | embossIndex
  | tallySpanEnd
  | tallySuspensionEnd (by_ : Occasion)
  | outsideRunReached (by_ : Occasion)
  | insideRunReached (by_ : Occasion)
  | triggerFire
  | cutPulseEnd
  | actuationCompletion
  | coveragePassageEnd
  -- Repeat track
  | cylinderIndex
  | spliceDetection
  | trackerWindowEnd
  | alignCountReached (by_ : Occasion)
  | missCountReached (by_ : Occasion)
  | lostHoldOffEnd
  -- Shade and batches, holds
  | shadeSample (codes : ShadeCodes)
  | calibrationDue (by_ : Occasion)
  | calibrationEnd
  | formingCountReached (by_ : Occasion)
  | driftRunReached (by_ : Occasion)
  | stepWatchFull (by_ : Occasion)
  | quietCountReached (by_ : Occasion)
  -- The line link
  | slotStart
  /-- FRAME_CHECK: the bits of the line from the first header bit to the last CRC bit, stuffing bits included -/
  | frameCheck (bits : List Bool)
  /-- FRAME_VOIDED: the sender station read from the frame's header -/
  | frameVoided (sender : Nat)
  | frameCutShort
  | telegramDropped (by_ : Occasion)
  /-- SENDER_BIT_DIFFERENCE: whether the difference lies inside the header -/
  | senderBitDifference (inHeader : Bool)
  | clashMarkDetected
  /-- LINE_STUCK: whether a frame was on the line at that moment -/
  | lineStuck (frameOnLine : Bool)
  | lineIdle
  | voidRunLimit (by_ : Occasion)
  | rejoin (by_ : Occasion)
  | ownCompletionRunLimit (by_ : Occasion)
  | sendTimer
  | listenTimer
  | listenSilence
  | resumeWindowClose
  -- Completed frames
  | join (o : Origin) (p : JoinPayload)
  | resume (o : Origin) (p : ResumePayload)
  | present (o : Origin)
  | down (o : Origin) (cause : ResetCause)
  | undefinedCodeTelegram (o : Origin) (p : UndefinedPayload)
  | requestNewJob (o : Origin) (arg : Nat)
  | requestCloseBatch (o : Origin) (arg : Nat)
  | requestCloseRoll (o : Origin) (arg : Nat)
  | requestHoldOn (o : Origin) (arg : Nat)
  | requestClearHold (o : Origin) (arg : Nat)
  | jobTaken (o : Origin) (p : JobPayload)
  | jobRefused (o : Origin) (p : JobPayload)
  | repeat_ (o : Origin) (p : RepeatPayload)
  | register (o : Origin) (p : RegisterPayload)
  | shade (o : Origin) (p : ShadePayload)
  | batchOpened (o : Origin) (p : BatchPayload)
  | batchFixed (o : Origin) (p : BatchPayload) (reference : Triple)
  | holdSet (o : Origin) (number : Nat) (causes : CauseSet)
  | holdClear (o : Origin) (number : Nat) (causes : CauseSet)
  | roll (o : Origin) (p : RollContent)
  | labelled (o : Origin) (number : Nat) (outcome : LabelOutcome)
  -- Peers, supply, resets, configuration
  | peerSilenceW (station : Nat)
  | peerSilence2W (station : Nat)
  | supplyWarning
  | supplyRecovery
  | powerReset
  /-- PIN_RESET: RESETN falls (`low`) or rises -/
  | pinReset (low : Bool)
  | configurationLoadEnd (image : Image)
  -- Labelling
  /-- ARRIVE_EDGE: the level of ARRIVE after the edge -/
  | arriveEdge (high : Bool)
  | arrival
  | sensorClear
  | readyFall
  | readyRise
  | printTimer
  | readyTimer
  | applyPulseEnd
  /-- ROLL_DEADLINE: the roll whose deadline passes -/
  | rollDeadline (number : Nat)
  -- Station port
  | readNode
  | readPeers
  | readTrack (number : Nat)
  | readRolls
  | readBatches
  | readHolds
  | readJob
  | readCounters
  | unknownCommand (code : Nat)
  | placeNewJob (arg : Nat)
  | placeCloseBatch (arg : Nat)
  | placeCloseRoll (arg : Nat)
  | placeHoldOn (arg : Nat)
  | placeClearHold (arg : Nat)
  | placeInvalidRequestKind (kind arg : Nat)
  | supwarnInactive
  deriving DecidableEq, Repr

end Sys2Proof
end

