-- ==== Sys2Proof/WellFormed.lean ====
section
/-! DEFINITION. Well-formedness of the commands: every operand lies in the range its field has (Table 3, Table 15,
Table 58). `exec` is total and does not ask for it; the statements and the sender do. -/

namespace Sys2Proof

/-- A station number, 1 to 31 (Table 3). -/
def wfStation (s : Nat) : Bool := 1 ≤ s && s ≤ 31

/-- A field of `bits` bits. -/
def wfField (bits n : Nat) : Bool := n < 2 ^ bits

/-- A signed 16-bit field (section 2.8). -/
def wfSigned16 (z : Int) : Bool := -32768 ≤ z && z ≤ 32767

def wfTriple (t : Triple) : Bool :=
  wfSigned16 t.lightness && wfSigned16 t.redGreen && wfSigned16 t.yellowBlue

def wfOptTriple : Option Triple → Bool
  | none => true
  | some t => wfTriple t

def wfJob (j : JobRecord) : Bool := wfField 16 j.number && wfField 8 j.pattern && wfField 24 j.first

/-- A cause set uses bits 0 to 9 (Table 16). -/
def wfCauses (c : BitVec 16) : Bool := c.toNat < 1024

/-- The payload of each kind fits the fields of Table 15, and no field holds a code that Table 16 lacks. -/
def Telegram.wf : Telegram → Bool
  | .join p => wfField 8 p.slot && wfField 16 p.signature
  | .resume p => wfField 8 p.slot && wfField 24 p.newestRepeat && wfField 24 p.newestRoll && wfField 16 p.newestBatch &&
      (match p.job with | none => true | some j => wfJob j)
  | .present => true
  | .down _ => true
  | .request _ arg => wfField 8 arg
  | .jobTaken p => wfField 16 p.number && wfField 8 p.pattern && wfField 24 p.first && wfField 8 p.requester
  | .jobRefused p => wfField 16 p.number && wfField 8 p.pattern && wfField 24 p.first && wfField 8 p.requester
  | .repeat_ p => wfField 24 p.number && wfField 16 p.length && wfField 16 p.job &&
      (match p.splice with | none => true | some s => wfField 16 s)
  | .register p => wfField 24 p.number && wfField 8 p.slot && wfSigned16 p.steps &&
      (match p.error with | none => true | some e => wfSigned16 e) &&
      (match p.nip with | none => true | some r => wfField 24 r.1)
  | .shade p => wfField 24 p.number && wfOptTriple p.left && wfOptTriple p.right
  | .batchOpened p => wfField 16 p.code && wfField 24 p.first
  | .batchFixed p t => wfField 16 p.code && wfField 24 p.first && wfTriple t
  | .holdSet n c => wfField 24 n && wfCauses c
  | .holdClear n c => wfField 24 n && wfCauses c
  | .roll p => wfField 24 p.number && wfField 24 p.first && wfField 16 p.count && wfField 16 p.batch && wfField 16 p.job &&
      wfCauses p.causes && wfCauses p.holdCauses && wfField 32 p.length
  | .labelled n _ => wfField 24 n
  | .undefined p => wfField 4 p.kind && wfField 24 p.number

def Occasion.wf : Occasion → Bool
  | .frameVoided s => wfStation s
  | .completed o t => wfStation o.sender && t.wf
  | _ => true

/-- A completed frame is well formed when its sender is a station and its payload fits Table 15. -/
def wfFrame (o : Origin) (t : Telegram) : Bool := wfStation o.sender && t.wf

/-- A converter code, 0 to 4,095 (R118). -/
def wfCodes (c : ShadeCodes) : Bool :=
  wfField 12 c.l0 && wfField 12 c.l1 && wfField 12 c.l2 && wfField 12 c.r0 && wfField 12 c.r1 && wfField 12 c.r2

/-- The well-formed commands. -/
def Instr.wf : Instr → Bool
  | .encoderCount _ _ => true
  | .webReversedOnset _ _ => true
  | .webReversedEnd _ _ => true
  | .speedInterval => true
  | .standstillTimer => true
  | .markLeadingEdge => true
  | .markTrailingEdge => true
  | .registerWindowEnd => true
  | .openRunReached c => c.wf
  | .lockRunReached c => c.wf
  | .unlockRunReached c => c.wf
  | .absentRunReached c => c.wf
  | .settleCountZero c => c.wf
  | .stepTrainCompletion => true
  | .embossIndex => true
  | .tallySpanEnd => true
  | .tallySuspensionEnd c => c.wf
  | .outsideRunReached c => c.wf
  | .insideRunReached c => c.wf
  | .triggerFire => true
  | .cutPulseEnd => true
  | .actuationCompletion => true
  | .coveragePassageEnd => true
  | .cylinderIndex => true
  | .spliceDetection => true
  | .trackerWindowEnd => true
  | .alignCountReached c => c.wf
  | .missCountReached c => c.wf
  | .lostHoldOffEnd => true
  | .shadeSample c => wfCodes c
  | .calibrationDue c => c.wf
  | .calibrationEnd => true
  | .formingCountReached c => c.wf
  | .driftRunReached c => c.wf
  | .stepWatchFull c => c.wf
  | .quietCountReached c => c.wf
  | .slotStart => true
  | .frameCheck _ => true
  | .frameVoided s => wfStation s
  | .frameCutShort => true
  | .telegramDropped c => c.wf
  | .senderBitDifference _ => true
  | .clashMarkDetected => true
  | .lineStuck _ => true
  | .lineIdle => true
  | .voidRunLimit c => c.wf
  | .rejoin c => c.wf
  | .ownCompletionRunLimit c => c.wf
  | .sendTimer => true
  | .listenTimer => true
  | .listenSilence => true
  | .resumeWindowClose => true
  | .join o p => wfFrame o (.join p)
  | .resume o p => wfFrame o (.resume p)
  | .present o => wfFrame o .present
  | .down o c => wfFrame o (.down c)
  | .undefinedCodeTelegram o p => wfFrame o (.undefined p)
  | .requestNewJob o a => wfFrame o (.request .newJob a)
  | .requestCloseBatch o a => wfFrame o (.request .closeBatch a)
  | .requestCloseRoll o a => wfFrame o (.request .closeRoll a)
  | .requestHoldOn o a => wfFrame o (.request .holdOn a)
  | .requestClearHold o a => wfFrame o (.request .clearHold a)
  | .jobTaken o p => wfFrame o (.jobTaken p)
  | .jobRefused o p => wfFrame o (.jobRefused p)
  | .repeat_ o p => wfFrame o (.repeat_ p)
  | .register o p => wfFrame o (.register p)
  | .shade o p => wfFrame o (.shade p)
  | .batchOpened o p => wfFrame o (.batchOpened p)
  | .batchFixed o p t => wfFrame o (.batchFixed p t)
  | .holdSet o n c => wfFrame o (.holdSet n c)
  | .holdClear o n c => wfFrame o (.holdClear n c)
  | .roll o p => wfFrame o (.roll p)
  | .labelled o n out => wfFrame o (.labelled n out)
  | .peerSilenceW s => wfStation s
  | .peerSilence2W s => wfStation s
  | .supplyWarning => true
  | .supplyRecovery => true
  | .powerReset => true
  | .pinReset _ => true
  | .configurationLoadEnd _ => true
  | .arriveEdge _ => true
  | .arrival => true
  | .sensorClear => true
  | .readyFall => true
  | .readyRise => true
  | .printTimer => true
  | .readyTimer => true
  | .applyPulseEnd => true
  | .rollDeadline n => wfField 24 n
  | .readNode => true
  | .readPeers => true
  | .readTrack n => wfField 24 n
  | .readRolls => true
  | .readBatches => true
  | .readHolds => true
  | .readJob => true
  | .readCounters => true
  | .unknownCommand c => wfField 8 c && !([1, 2, 3, 4, 5, 6, 7, 8, 16].contains c)
  | .placeNewJob a => wfField 8 a
  | .placeCloseBatch a => wfField 8 a
  | .placeCloseRoll a => wfField 8 a
  | .placeHoldOn a => wfField 8 a
  | .placeClearHold a => wfField 8 a
  | .placeInvalidRequestKind k a => wfField 8 k && wfField 8 a && !(k < 5)
  | .supwarnInactive => true

end Sys2Proof
end

