-- ==== Sys2Proof/Decode.lean ====
section
/-! DEFINITION. The words of the operation table. The table gives no row any bits (the commands are events of the
node's lines, of the link and of the host's transactions), so no word spells a command. -/

namespace Sys2Proof

/-- The command that a word spells by the table's bits: none, since no row of the table gives bits. -/
def decodeTableWord (_nbits _w : Nat) : Option Instr := none

end Sys2Proof
end

