-- ==== Sys2Proof/Machine/State.lean ====
section
/-! DEFINITION. The state of the node as plain data, block by block (Table 2), and the machine right after reset. -/

namespace Sys2Proof.Machine

/-! ### Node state, start-up and peers (chapter 11) -/

/-- Table 16 and Table 57: node state. -/
inductive NodeState where
  | loading | unconfigured | listening | joining | joined | benched | muted | down
  deriving DecidableEq, Repr

/-- R191: why a node is MUTED. -/
inductive MuteCause where
  | voiding | clash
  deriving DecidableEq, Repr

/-- R189: configuration fault code. -/
inductive ConfigFault where
  | noImage | checksum | range
  deriving DecidableEq, Repr

/-- Table 58: state of a Peer Table entry. -/
inductive PeerState where
  | absent | present | quiet | lost | down | benched
  deriving DecidableEq, Repr

/-- One entry of the Peer Table (section 11.2). `role` carries the role and colour slot, or none. -/
structure Peer where
  state : PeerState := .absent
  role : Option (Role × Nat) := none
  learnt : Bool := false
  cause : Option ResetCause := none
  restarts : Nat := 0
  silence : Nat := 0
  signature : Option Nat := none
  lastRepeat : Nat := 0
  deriving DecidableEq, Repr

/-- The input pins the node holds as levels (Table 4). -/
structure Pins where
  encA : Bool := false
  encB : Bool := false
  eyeDark : Bool := false
  readyHigh : Bool := false
  arriveHigh : Bool := false
  /-- SUPWARN is active -/
  supwarn : Bool := false
  /-- milliseconds SUPWARN has been inactive without a break, held at 100 (R190) -/
  supwarnQuiet : Nat := 0
  /-- RESETN is low -/
  resetLow : Bool := false
  deriving DecidableEq, Repr

/-! ### Web travel, marks and position triggers (chapter 1) -/

/-- R5: motion state. -/
inductive Motion where
  | moving | standstill
  deriving DecidableEq, Repr

structure Travel where
  remainder : Int := 0
  position : Pos := 0
  debt : Nat := 0
  advances : Nat := 0
  intervalLeft : Nat := 10
  speed : Nat := 0
  motion : Motion := .standstill
  standstill : Option Nat := none
  /-- last repeat boundary: position and time -/
  lastBoundary : Option (Pos × Nat) := none
  lastSpeed : Option Nat := none
  webReversed : Bool := false
  speedStep : Bool := false
  deriving DecidableEq, Repr

/-- R8: the mark in progress. -/
structure Mark where
  edge : Pos
  time : Nat
  inSpan : Bool
  deriving DecidableEq, Repr

/-- One mark or index pulse of a history (R9, R11). -/
structure HistoryMark where
  edge : Pos
  taken : Bool
  deriving DecidableEq, Repr

/-- R10: the open register window. `best` is the nearest candidate so far. -/
structure RegWindow where
  number : Nat
  expected : Pos
  best : Option Pos
  /-- opened for a synthesised mark (R85) -/
  synthesised : Bool
  /-- the match report of its repeat carried the tracker state TRACK (R87) -/
  tracked : Bool
  deriving DecidableEq, Repr

/-- R12: the tally span in progress, with the cells sampled so far, cell 0 first. -/
structure TallySpan where
  edge : Pos
  cells : List Bool
  failed : Bool
  /-- it was running when a switch was made (R78) -/
  stale : Bool
  deriving DecidableEq, Repr

structure Marks where
  mark : Option Mark := none
  history : List HistoryMark := []
  indexes : List HistoryMark := []
  window : Option RegWindow := none
  span : Option TallySpan := none
  /-- the last two tally reads, the newer last; none is a failed read -/
  reads : List (Option Nat) := []
  observed : Option Nat := none
  stray : Count32 := 0
  deriving DecidableEq, Repr

/-- Table 10: output of a trigger entry. -/
inductive TriggerOutput where
  | cut | nipOpen | nipClose
  deriving DecidableEq, Repr

structure TriggerEntry where
  output : TriggerOutput
  position : Pos
  tag : Nat
  deriving DecidableEq, Repr

structure Triggers where
  entries : List TriggerEntry := []
  /-- CUT pulse: milliseconds left -/
  cut : Option Nat := none
  deriving DecidableEq, Repr

/-! ### The repeat track (chapter 3) -/

/-- Table 16: tracker state. -/
inductive TrackerState where
  | idle | search | align | track | lost
  deriving DecidableEq, Repr

/-- Table 20: a register result. -/
structure RegResult where
  state : LoopState
  error : Option Int
  steps : Int
  deriving DecidableEq, Repr

/-- Table 20: the shade of a record. -/
structure ShadeField where
  grade : ShadeGrade
  left : Option Triple
  right : Option Triple
  deriving DecidableEq, Repr

/-- Table 20: a repeat record. `results` are those of slots 1 to 8. -/
structure RepeatRecord where
  number : Nat
  length : Nat
  job : Nat
  splice : Option Nat
  results : List (Option RegResult) := [none, none, none, none, none, none, none, none]
  nip : Option Coverage := none
  shade : Option ShadeField := none
  batch : Nat := 0
  heldBy : StationSet := 0
  deriving DecidableEq, Repr

structure Track where
  table : List RepeatRecord := []
  here : Option Nat := none
  tracker : TrackerState := .idle
  predicted : Option Pos := none
  predLen : Option Nat := none
  alignCount : Nat := 0
  missCount : Nat := 0
  lostStart : Option Pos := none
  tracked : Bool := false
  lastDepth : Option Nat := none
  running : Bool := false
  prevIndex : Option Pos := none
  nextRepeat : Option Nat := none
  newestIssued : Option Nat := none
  splices : List Pos := []
  lastSplice : Option Pos := none
  missed : Count32 := 0
  unclaimed : Count32 := 0
  evictions : Count32 := 0
  spliceOverflows : Count32 := 0
  deriving DecidableEq, Repr

/-! ### Jobs and patterns (chapter 4) -/

/-- A NEW_JOB request: its pattern code and requesting station (R70). -/
structure NewJobRequest where
  pattern : Nat
  station : Nat
  deriving DecidableEq, Repr

/-- A REQUEST that the KEY holds: a NEW_JOB (R38, R70), or an operator's request that names it, HOLD_ON (true) or CLEAR_HOLD
(false), applied while its resume window was open (R38). -/
inductive HeldRequest where
  | newJob (q : NewJobRequest)
  | operator (on : Bool)
  deriving DecidableEq, Repr

structure JobUnit where
  given : Option JobRecord := none
  current : Option JobRecord := none
  history : List JobRecord := []
  unknownPart : Bool := false
  lengthPart : Bool := false
  tallyPart : Bool := false
  observedLength : Option Nat := none
  outside : Nat := 0
  inside : Nat := 0
  suspension : Nat := 0
  observedPattern : Option Nat := none
  nextJob : Option Nat := none
  inOffer : Option (JobRecord × Nat) := none
  /-- the held requests, in the order of application (R38, R70) -/
  held : List HeldRequest := []
  deriving DecidableEq, Repr

/-! ### Register loop (chapter 5) -/

/-- R95: a step train: its signed count, the repeat it was issued for, and the milliseconds since issue. -/
structure StepTrain where
  count : Int
  number : Nat
  elapsed : Nat
  deriving DecidableEq, Repr

structure RegLoop where
  state : LoopState := .opened
  openRun : Nat := 0
  lockRun : Nat := 0
  unlockRun : Nat := 0
  absentRun : Nat := 0
  lastError : Option Int := none
  lastErrorRepeat : Option Nat := none
  train : Option StepTrain := none
  /-- the pulse in progress of a train that a rejoin cut (R102) -/
  tail : Option StepTrain := none
  /-- DIR is high -/
  dir : Bool := false
  settle : Nat := 0
  lastSteps : Int := 0
  lastStepsRepeat : Option Nat := none
  deriving DecidableEq, Repr

/-! ### Embossing (chapter 6) -/

/-- Table 33: nip state. -/
inductive NipState where
  | opened | closing | closed | opening
  deriving DecidableEq, Repr

/-- R111: the open arm of a splice passage. -/
inductive OpenArm where
  | none | armed (position : Pos) | done
  deriving DecidableEq, Repr

structure Passage where
  openArm : OpenArm
  reclose : Pos
  /-- the re-close is armed (else it waits to be armed) -/
  recloseArmed : Bool
  deriving DecidableEq, Repr

/-- R114: a coverage span. `atNip` is set once the local position has passed its start. -/
structure CoverageSpan where
  number : Nat
  start : Pos
  atNip : Bool := false
  sawClosed : Bool := false
  sawOther : Bool := false
  sawMoving : Bool := false
  deriving DecidableEq, Repr

structure Nip where
  state : NipState := .opened
  actuation : Option Nat := none
  waitingClose : Bool := false
  regular : Bool := false
  passage : Option Passage := none
  spans : List CoverageSpan := []
  reports : List (Nat × Coverage) := []
  deriving DecidableEq, Repr

/-! ### Shade and batches (chapter 7) -/

/-- One channel integrator. -/
structure Channel where
  sum : Nat := 0
  count : Nat := 0
  saturated : Bool := false
  deriving DecidableEq, Repr

/-- Table 36: head state. -/
inductive HeadState where
  | uncalibrated | calibrating | measuring
  deriving DecidableEq, Repr

/-- R119: the window in progress. `inSpan` is set when part of it lies within a shutter span. -/
structure ShadeWindow where
  number : Nat
  inSpan : Bool
  deriving DecidableEq, Repr

/-- R122: a calibration run: the start of its span, the length L, and the six tile integrators. -/
structure CalRun where
  start : Pos
  length : Nat
  tiles : List Channel
  deriving DecidableEq, Repr

structure Shade where
  window : Option ShadeWindow := none
  channels : List Channel := [{}, {}, {}, {}, {}, {}]
  head : HeadState := .uncalibrated
  offsets : List Int := [0, 0, 0, 0, 0, 0]
  offsetsGood : Bool := false
  due : Nat := 0
  run : Option CalRun := none
  fault : Bool := false
  /-- SHADE_EDGE -/
  edge : Bool := false
  /-- saturation part of HEAD_FAULT -/
  satPart : Bool := false
  samplesDue : Nat := 0
  /-- the first repeat after the latest calibration, once known -/
  firstAfter : Option Nat := none
  awaitFirst : Bool := false
  deriving DecidableEq, Repr

/-- A graded repeat of the shade history. -/
structure Graded where
  number : Nat
  grade : ShadeGrade
  mean : Option Triple
  deriving DecidableEq, Repr

/-- Table 37: phase of the own batch. -/
inductive BatchPhase where
  | forming | fixed
  deriving DecidableEq, Repr

structure OwnBatch where
  code : Nat
  first : Nat
  reason : BatchReason
  phase : BatchPhase
  sums : Triple
  count : Nat
  reference : Triple
  tolerance : Triple
  deriving DecidableEq, Repr

structure StepWatch where
  before : Triple
  held : List Graded
  deriving DecidableEq, Repr

/-- State of a batch list entry (section 7.5). -/
inductive BatchState where
  | forming | fixed | closed
  deriving DecidableEq, Repr

structure BatchEntry where
  code : Nat
  first : Nat
  last : Option Nat
  reference : Option Triple
  state : BatchState
  deriving DecidableEq, Repr

structure BatchUnit where
  list : List BatchEntry := []
  history : List Graded := []
  own : Option OwnBatch := none
  driftRun : Nat := 0
  driftFirst : Option Nat := none
  watch : Option StepWatch := none
  inOffer : Nat := 0
  lastDecided : Option Nat := none
  nextCode : Option Nat := none
  kind : Option BatchReason := none
  heldOpenings : List (Nat × BatchReason) := []
  lastOpened : Option Nat := none
  /-- how often a drift run reached K; the model's own (log entry 61) -/
  driftReached : Nat := 0
  deriving DecidableEq, Repr

/-! ### Holds (chapter 8) -/

/-- Table 42: hold state. -/
inductive HoldState where
  | clear | held | quieting | waitingRoll
  deriving DecidableEq, Repr

/-- R149: a hold statement. A CLEAR carries the cause set the hold had when it was cleared. -/
inductive Statement where
  | set (number : Nat) (causes : CauseSet)
  | clear (number : Nat) (causes : CauseSet)
  deriving DecidableEq, Repr

/-- The own open hold. -/
structure OwnHold where
  first : Nat
  causes : CauseSet
  deriving DecidableEq, Repr

/-- Table 43: hold list entry; OPEN while `last` is none. -/
structure HoldEntry where
  station : Nat
  first : Nat
  last : Option Nat
  causes : CauseSet
  deriving DecidableEq, Repr

structure HoldUnit where
  /-- OPERATOR -/
  operator : Bool := false
  state : HoldState := .clear
  own : Option OwnHold := none
  quiet : Nat := 0
  target : Option Nat := none
  wanted : Option Statement := none
  inOffer : Option Statement := none
  /-- refused at a full queue: to be offered at the next own completion -/
  waiting : Bool := false
  lastDone : Option Statement := none
  seen : CauseSet := 0
  list : List HoldEntry := []
  deriving DecidableEq, Repr

/-! ### Rolls and cutting (chapter 9) -/

/-- Table 45: the reasons of a cut plan entry. -/
structure CutReasons where
  full : Bool := false
  splice : Bool := false
  batch : Bool := false
  job : Bool := false
  operator : Bool := false
  start : Bool := false
  deriving DecidableEq, Repr

/-- Table 45: what an ARMED entry holds. -/
structure Arming where
  tag : Nat
  knife : Pos
  job : Nat
  pattern : Option Nat
  deriving DecidableEq, Repr

structure PlanEntry where
  cut : Nat
  reasons : CutReasons
  kind : PieceKind
  arming : Option Arming := none
  moved : Bool := false
  late : Bool := false
  /-- the full count N kept with the entry (R159) -/
  full : Nat := 0
  deriving DecidableEq, Repr

structure OpenPiece where
  number : Nat
  kind : PieceKind
  first : Nat
  opening : Pos
  job : Nat
  pattern : Option Nat
  full : Nat
  start : Bool := false
  cutMoved : Bool := false
  batchLate : Bool := false
  deriving DecidableEq, Repr

structure RollUnit where
  piece : Option OpenPiece := none
  plan : List PlanEntry := []
  awaiting : List RollContent := []
  nextRoll : Option Nat := none
  lastGap : Option Nat := none
  planRefusals : Count32 := 0
  cutsMoved : Count32 := 0
  lateDecisions : Count32 := 0
  list : List RollContent := []
  departed : List (Nat × LabelOutcome) := []
  deriving DecidableEq, Repr

/-! ### Labelling (chapter 10) -/

/-- The disposition of a roll list entry; a deadline is a time of the node's time base in milliseconds. -/
inductive Disposition where
  | waiting (deadline : Nat)
  | labelling
  | decided (outcome : LabelOutcome)
  deriving DecidableEq, Repr

/-- Table 52: gate position. -/
inductive Gate where
  | holdLane | pass | wasteLane
  deriving DecidableEq, Repr

/-- Table 54: printer state. -/
inductive Printer where
  | idle | printing | fault
  deriving DecidableEq, Repr

/-- A label of the label queue: its roll, its block (Table 53) and the gate position set at its arrival. -/
structure Label where
  number : Nat
  block : List Byte
  gate : Gate
  deriving DecidableEq, Repr

/-- R186: an outcome in offer. `serial` is the model's own: it tells the offers of equal outcomes apart (log entry 48). -/
structure OutcomeEntry where
  number : Nat
  outcome : LabelOutcome
  serial : Nat
  deriving DecidableEq, Repr

structure LabelUnit where
  disps : List (Nat × Disposition) := []
  /-- the arrival sensor is PRESENT -/
  present : Bool := false
  debounce : Option Nat := none
  gate : Gate := .holdLane
  queue : List Label := []
  printer : Printer := .idle
  printTimer : Option Nat := none
  readyTimer : Option Nat := none
  applyTimer : Option Nat := none
  /-- the mark "READY seen low" -/
  seenLow : Bool := false
  /-- the label in print was removed at a full roll list (R177) -/
  abandoned : Bool := false
  /-- the block on LBLD, with its carriage return, and the milliseconds since its start -/
  sending : Option (List Byte × Nat) := none
  outcomes : List OutcomeEntry := []
  /-- the serial of the next outcome in offer (log entry 48) -/
  nextSerial : Nat := 0
  printed : Count32 := 0
  diverted : Count32 := 0
  deriving DecidableEq, Repr

/-! ### The line link (chapter 2) -/

/-- What a regrade changes in a roll list entry (R161). -/
structure RollChange where
  late : Bool
  batch : Option Nat
  deriving DecidableEq, Repr

/-- Which block's offer a queued telegram is, so that its end reaches that block. -/
inductive OfferBy where
  | plain
  | join
  | resume
  | request
  | job
  | opened
  /-- `after` is the newest opening when the FIXED was offered (R130) -/
  | fixed (after : Option Nat)
  | hold
  | restateBatch
  | restateHold
  | restateRoll
  | roll
  | regrade (change : RollChange)
  | labelled (serial : Nat)
  deriving DecidableEq, Repr

structure QEntry where
  telegram : Telegram
  restate : Bool
  offerBy : OfferBy
  deriving DecidableEq, Repr

/-- An offer refused at a full queue, to be made again at the next completion of an own frame (R31). -/
inductive Reoffer where
  | resume
  | job
  | opened (p : BatchPayload)
  | fixed (p : BatchPayload) (reference : Triple) (after : Option Nat)
  | hold
  | restateBatch
  | restateHold
  | restateRoll
  | roll (number : Nat)
  | regrade (number : Nat) (change : RollChange)
  | labelled (o : OutcomeEntry)
  deriving DecidableEq, Repr

/-- R39: a restate list. `busy` while its restate is in offer or waits after a refusal. -/
structure RestateBatch where
  /-- batch codes, each with whether the restate is the FIXED -/
  items : List (Nat × Bool) := []
  busy : Bool := false
  deriving DecidableEq, Repr

structure RestateHold where
  todo : Bool := false
  busy : Bool := false
  deriving DecidableEq, Repr

structure RestateRoll where
  items : List Nat := []
  busy : Bool := false
  deriving DecidableEq, Repr

structure Link where
  queue : List QEntry := []
  attempts : Nat := 0
  /-- the frame in flight is on the line -/
  sending : Bool := false
  /-- its sender has stopped driving after a difference (R24) -/
  stopped : Bool := false
  w : Nat := 31
  /-- slots counted since the last idle gap; none while the line is busy -/
  slot : Option Nat := none
  /-- the frame now on the line failed a check at this node (R23) -/
  faulty : Bool := false
  /-- this node drove the void during the frame now on the line (R27) -/
  drove : Bool := false
  /-- the DOMINANT bit times of the clash mark this node is driving (R24, log entry 49) -/
  clashMark : Nat := 0
  voidRun : Nat := 0
  goodRun : Nat := 0
  ownRun : Nat := 0
  linkFault : Bool := false
  stuck : Bool := false
  newestRepeat : Option Nat := none
  newestRoll : Option Nat := none
  newestBatch : Option Nat := none
  newestJob : Option Nat := none
  /-- send timer: milliseconds since its start -/
  sendElapsed : Option Nat := none
  /-- resume window: milliseconds left -/
  resume : Option Nat := none
  /-- listen timer: milliseconds left -/
  listen : Option Nat := none
  heardEnd : Bool := false
  silentMs : Nat := 0
  restBatch : RestateBatch := {}
  restHold : RestateHold := {}
  restRoll : RestateRoll := {}
  refusedOffers : List Reoffer := []
  completed : Count32 := 0
  raised : Count32 := 0
  seenVoids : Count32 := 0
  dropped : Count32 := 0
  discarded : Count32 := 0
  deriving DecidableEq, Repr

/-! ### Station port (section 11.4) -/

/-- R198: state of the request slot. -/
inductive SlotState where
  | idle | pending | sent | refused
  deriving DecidableEq, Repr

/-- R198: the job answer. -/
inductive JobAnswer where
  | none | taken (number : Nat) | refused
  deriving DecidableEq, Repr

structure Port where
  slot : SlotState := .idle
  kind : Option RequestKind := none
  arg : Option Nat := none
  answer : JobAnswer := .none
  refusals : Count32 := 0
  /-- attention causes: bit 0 REQUEST, 1 HOLD_STATE, 2 NODE_STATE, 3 JOB_ANSWER -/
  attention : BitVec 4 := 0
  /-- the answer of the last transaction: status, length and content -/
  out : List Byte := []
  deriving DecidableEq, Repr

/-! ### The node -/

/-- The 31 entries of the Peer Table after reset (R200). -/
def resetPeers : List Peer := List.replicate 31 {}

/-- Everything of the node but its queue of commands. -/
structure Node where
  st : NodeState := .loading
  muteCause : Option MuteCause := none
  benchMark : Bool := false
  resetCause : ResetCause := .power
  configFault : Option ConfigFault := none
  image : Option Config := none
  signature : Nat := 0
  freeIndex : Nat := 0
  now : Nat := 0
  pins : Pins := {}
  travel : Travel := {}
  marks : Marks := {}
  trig : Triggers := {}
  track : Track := {}
  job : JobUnit := {}
  loop : RegLoop := {}
  nip : Nip := {}
  shade : Shade := {}
  batch : BatchUnit := {}
  hold : HoldUnit := {}
  roll : RollUnit := {}
  label : LabelUnit := {}
  link : Link := {}
  peers : List Peer := resetPeers
  port : Port := {}
  deriving DecidableEq, Repr

/-- The state of the block: the node, and the commands that wait, first in, first out. -/
structure State where
  node : Node
  pending : List Instr
  deriving DecidableEq, Repr

/-- The machine right after reset: LOADING, every block at the reset values of R7, R14, R18, R41, R64, R81, R102,
R117, R138, R154, R175, R188 and R200; the values those rules do not give are named in log entry 5. -/
def State.reset : State := { node := {}, pending := [] }

/-- Why a command stops the machine. The manual stops the node nowhere, so there is no such reason. -/
inductive Fault where
  deriving DecidableEq, Repr

/-- Why a command has no meaning. -/
inductive Refusal where
  /-- Raised by `exec` for a command whose meaning is not written; safe. No arm raises it. -/
  | notModelled (mnemonic : String)
  deriving DecidableEq, Repr

end Sys2Proof.Machine
end

