-- ==== Sys2Proof/Machine/Operands.lean ====
section
/-! DEFINITION. The arithmetic the blocks share: wrapping numbers and positions (Conventions), rounding, bytes, the CRC
and stuffing of R20, and the codes and payload layouts of Tables 15 and 16. -/

namespace Sys2Proof.Machine

/-! ### Wrapping numbers (Conventions: numbers run from 1 to their largest value and wrap to 1) -/

def repeatRange : Nat := 16777215
def rollRange : Nat := 999999
def batchRange : Nat := 9999
def jobRange : Nat := 65535

/-- The count of steps from `b` forward to `a`. -/
def fwd (range b a : Nat) : Nat := (a + range - b % range) % range

/-- `a` is newer than `b`: at least 1 step forward and less than half the range. -/
def newer (range a b : Nat) : Bool := decide (1 ≤ fwd range b a) && decide (2 * fwd range b a < range)

def atOrAfter (range a b : Nat) : Bool := decide (a = b) || newer range a b

/-- The next number, wrapping from the largest value to 1. -/
def succIn (range n : Nat) : Nat := if n < range then n + 1 else 1

def addIn (range n k : Nat) : Nat := (n + k + range - 1) % range + 1

def subIn (range n k : Nat) : Nat := (n + range - 1 - k % range) % range + 1

/-- `x` lies in the run of `count` numbers from `first`. -/
def inRun (range first count x : Nat) : Bool := decide (fwd range first x < count)

/-- The last number of the run of `count` numbers from `first`. -/
def lastIn (range first count : Nat) : Nat := subIn range (first + count) 1

/-- Two runs share a number. -/
def runsMeet (range f1 c1 f2 c2 : Nat) : Bool :=
  decide (0 < c1) && decide (0 < c2) && (inRun range f1 c1 f2 || inRun range f2 c2 f1)

/-- R37: raising a newest-heard number. A carried 0 raises nothing. -/
def raiseNumber (range : Nat) (old : Option Nat) (carried : Nat) : Option Nat :=
  if carried = 0 then old
  else match old with
    | none => some carried
    | some o => if newer range carried o then some carried else some o

/-- R38: the first number after the resume window. -/
def numberAfter (range : Nat) : Option Nat → Nat
  | none => 1
  | some n => succIn range n

/-! ### Positions -/

/-- The difference of two positions, taken within ±2^31 ticks. -/
def posDiff (a b : Pos) : Int := (a - b).toInt

/-- The local position `p` has passed `q`: it is at or beyond it. -/
def passed (p q : Pos) : Bool := decide (0 ≤ posDiff p q)

/-- A position moved by a signed number of ticks. -/
def movePos (p : Pos) (d : Int) : Pos := p + BitVec.ofInt 32 d

/-! ### Rounding -/

/-- The quotient rounded to the nearest whole number, an exact half away from zero. -/
def roundHalfAway (num : Int) (den : Nat) : Int :=
  if 0 ≤ num then (2 * num + den) / (2 * den) else -((2 * (-num) + den) / (2 * den))

def clampInt (lo hi z : Int) : Int := if z < lo then lo else if hi < z then hi else z

def ceilDiv (a b : Nat) : Nat := (a + b - 1) / b

/-! ### Bytes (section 2.8: most significant byte first, two's complement) -/

def byte (n : Nat) : Byte := BitVec.ofNat 8 n

def be2 (n : Nat) : List Byte := [byte (n / 256), byte n]
def be3 (n : Nat) : List Byte := [byte (n / 65536), byte (n / 256), byte n]
def be4 (n : Nat) : List Byte := [byte (n / 16777216), byte (n / 65536), byte (n / 256), byte n]

def beSigned2 (z : Int) : List Byte := be2 (z % 65536).toNat

def beTriple (t : Triple) : List Byte := beSigned2 t.lightness ++ beSigned2 t.redGreen ++ beSigned2 t.yellowBlue

/-- Value of bytes, most significant first. -/
def beValue (bs : List Byte) : Nat := bs.foldl (fun a b => a * 256 + b.toNat) 0

/-- The bits of a number's low `n` bits, most significant first. -/
def bitsOf : Nat → Nat → List Bool
  | 0, _ => []
  | n + 1, v => v.testBit n :: bitsOf n v

/-- Value of bits, most significant first. -/
def bitsValue (bs : List Bool) : Nat := bs.foldl (fun a b => 2 * a + (if b then 1 else 0)) 0

def bytesBits (bs : List Byte) : List Bool := bs.flatMap (fun b => bitsOf 8 b.toNat)

/-! ### CRC and stuffing (R20) -/

/-- One bit of the CRC with the polynomial x^16 + x^12 + x^5 + 1. -/
def crcStep (r : BitVec 16) (b : Bool) : BitVec 16 :=
  let out := r.msb ^^ b
  let s := r <<< 1
  if out then s ^^^ 0x1021#16 else s

/-- The CRC of R20, started from all ones. -/
def crc16 (bits : List Bool) : BitVec 16 := bits.foldl crcStep 0xFFFF#16

/-- The sender's stuffing: one bit of the opposite level after every five equal bits. That an inserted bit counts as the
first of the next run of five is the model's choice (log entry 20). -/
def stuffFrom : List Bool → Bool → Nat → List Bool
  | [], _, _ => []
  | b :: rest, level, run =>
    let run' := if run ≠ 0 ∧ b = level then run + 1 else 1
    if run' = 5 then b :: (!b) :: stuffFrom rest (!b) 1 else b :: stuffFrom rest b run'

def stuff (bits : List Bool) : List Bool := stuffFrom bits false 0

/-- The receiver's removal of the stuffing bits; none is a coding fault, a run of six equal bits. -/
def destuffFrom : List Bool → Bool → Nat → Option (List Bool)
  | [], _, _ => some []
  | b :: rest, level, run =>
    if run = 5 then
      if b = level then none else destuffFrom rest b 1
    else
      (destuffFrom rest b (if run ≠ 0 ∧ b = level then run + 1 else 1)).map (b :: ·)

def destuff (bits : List Bool) : Option (List Bool) := destuffFrom bits false 0

/-! ### Codes of Table 16 -/

def NodeState.code : NodeState → Nat
  | .loading => 0 | .unconfigured => 1 | .listening => 2 | .joining => 3 | .joined => 4 | .benched => 5 | .muted => 6 | .down => 7

def HoldState.code : HoldState → Nat
  | .clear => 0 | .held => 1 | .quieting => 2 | .waitingRoll => 3

def TrackerState.code : TrackerState → Nat
  | .idle => 0 | .search => 1 | .align => 2 | .track => 3 | .lost => 4

end Sys2Proof.Machine

namespace Sys2Proof

def Role.code : Role → Nat
  | .key => 0 | .print => 1 | .emboss => 2 | .shade => 3 | .rewind => 4 | .label => 5

def ResetCause.code : ResetCause → Nat
  | .power => 0 | .pin => 1 | .supply => 2 | .rejoin => 3

def RequestKind.code : RequestKind → Nat
  | .newJob => 0 | .closeBatch => 1 | .closeRoll => 2 | .holdOn => 3 | .clearHold => 4

def LoopState.code : LoopState → Nat
  | .opened => 0 | .far => 1 | .capture => 2 | .locked => 3

def Coverage.code : Coverage → Nat
  | .full => 0 | .partly => 1 | .none => 2

def ShadeGrade.code : ShadeGrade → Nat
  | .ok => 0 | .edge => 1 | .absent => 2 | .saturated => 3

def BatchReason.code : BatchReason → Nat
  | .start => 0 | .drift => 1 | .job => 2 | .operator => 3 | .calibrationStep => 4 | .restart => 5

def PieceKind.code : PieceKind → Nat
  | .roll => 0 | .waste => 1

def Grade.code : Grade → Nat
  | .first => 0 | .short => 1 | .hold => 2 | .waste => 3

def LabelOutcome.code : LabelOutcome → Nat
  | .labelled => 0 | .divertedWaste => 1 | .divertedHold => 2 | .notLabelled => 3 | .unknownRoll => 4 | .missing => 5

/-- Table 14: the kind code; `undefined` carries its own. -/
def Telegram.kindCode : Telegram → Nat
  | .join _ => 0 | .resume _ => 1 | .present => 2 | .down _ => 3 | .request _ _ => 4 | .jobTaken _ => 5 | .jobRefused _ => 5
  | .repeat_ _ => 6 | .register _ => 7 | .shade _ => 8 | .batchOpened _ => 9 | .batchFixed _ _ => 9 | .holdSet _ _ => 10
  | .holdClear _ _ => 10 | .roll _ => 11 | .labelled _ _ => 12 | .undefined p => p.kind

/-- Table 14: the ROUTINE class is PRESENT, REGISTER and SHADE; every other kind is RECORD. -/
def Telegram.routine : Telegram → Bool
  | .present => true
  | .register _ => true
  | .shade _ => true
  | _ => false

end Sys2Proof

namespace Sys2Proof.Machine

/-! ### Payload layouts of Table 15 -/

def jobPayloadBytes (p : JobPayload) (outcome : Nat) : List Byte :=
  be2 p.number ++ [byte p.pattern] ++ be3 p.first ++ [byte outcome, byte p.requester]

def batchPayloadBytes (p : BatchPayload) (action : Nat) : List Byte :=
  be2 p.code ++ [byte action] ++ be3 p.first ++ [byte p.reason.code]

def holdPayloadBytes (action number : Nat) (causes : CauseSet) : List Byte :=
  [byte action] ++ be3 number ++ be2 causes.toNat

def rollBytes (p : RollContent) : List Byte :=
  be3 p.number ++ [byte p.kind.code] ++ be3 p.first ++ be2 p.count ++ be2 p.batch ++ be2 p.job ++ [byte p.grade.code] ++
    be2 p.causes.toNat ++ be2 p.holdCauses.toNat ++ be4 p.length

def resumeBytes (p : ResumePayload) : List Byte :=
  [byte p.role.code, byte p.slot] ++ be3 p.newestRepeat ++ be3 p.newestRoll ++ be2 p.newestBatch ++
    (match p.job with
     | none => [byte 0]
     | some j => [byte 1] ++ be2 j.number ++ [byte j.pattern] ++ be3 j.first)

def repeatBytes (p : RepeatPayload) : List Byte :=
  be3 p.number ++ be2 p.length ++ be2 p.job ++
    (match p.splice with
     | none => [byte 0]
     | some s => [byte 1] ++ be2 s)

def registerBytes (p : RegisterPayload) : List Byte :=
  be3 p.number ++ [byte p.slot, byte p.state.code] ++ beSigned2 p.steps ++
    [byte ((if p.error.isSome then 1 else 0) + (if p.nip.isSome then 2 else 0))] ++
    (match p.error with | none => [] | some e => beSigned2 e) ++
    (match p.nip with | none => [] | some r => be3 r.1 ++ [byte r.2.code])

def shadeBytes (p : ShadePayload) : List Byte :=
  be3 p.number ++ [byte p.grade.code, byte ((if p.left.isSome then 1 else 0) + (if p.right.isSome then 2 else 0))] ++
    (match p.left with | none => [] | some t => beTriple t) ++
    (match p.right with | none => [] | some t => beTriple t)

/-- The payload bytes of a telegram. -/
def payloadBytes : Telegram → List Byte
  | .join p => [byte p.role.code, byte p.slot, byte p.cause.code] ++ be2 p.signature
  | .resume p => resumeBytes p
  | .present => []
  | .down c => [byte c.code]
  | .request k a => [byte k.code, byte a]
  | .jobTaken p => jobPayloadBytes p 0
  | .jobRefused p => jobPayloadBytes p 1
  | .repeat_ p => repeatBytes p
  | .register p => registerBytes p
  | .shade p => shadeBytes p
  | .batchOpened p => batchPayloadBytes p 0
  | .batchFixed p t => batchPayloadBytes p 1 ++ beTriple t
  | .holdSet n c => holdPayloadBytes 0 n c
  | .holdClear n c => holdPayloadBytes 1 n c
  | .roll p => rollBytes p
  | .labelled n o => be3 n ++ [byte o.code]
  | .undefined _ => []

/-- The header word: bits 15–11 sender, 10–7 kind, 6 restate flag, 5–0 payload length. -/
def headerWord (sender kind : Nat) (restate : Bool) (length : Nat) : Nat :=
  sender * 2048 + kind * 128 + (if restate then 64 else 0) + length

/-- The header, payload and CRC bits of a frame before stuffing (R20). -/
def frameFields (sender : Nat) (restate : Bool) (t : Telegram) : List Bool :=
  let body := bitsOf 16 (headerWord sender t.kindCode restate (payloadBytes t).length) ++ bytesBits (payloadBytes t)
  body ++ bitsOf 16 (crc16 body).toNat

/-- The bits a sender puts on the line from the first preamble bit to the last CRC bit; true is RECESSIVE. Table 12 gives the
levels of the preamble and the flag; that a 1 of header, payload and CRC is RECESSIVE is the model's choice (log entry 46). -/
def frameBits (sender : Nat) (restate : Bool) (t : Telegram) : List Bool :=
  [false, true, false, true, false, true, false, true] ++ [true, false, false, false, false, false, false, true] ++
    stuff (frameFields sender restate t)

/-! ### The checks of R23 -/

/-- The byte at an index of the payload, as a number. -/
def payloadAt (p : List Byte) (i : Nat) : Nat := (p.getD i 0).toNat

/-- Table 15: the payload length allowed for the kind, given the action, outcome or presence bits it carries, and no
undefined presence bit. Kinds 13, 14 and 15 are never good. A BATCH whose action code is undefined is good with either
length, the model's choice (log entry 47). -/
def payloadGood (kind : Nat) (p : List Byte) : Bool :=
  match kind with
  | 0 => p.length = 5
  | 1 => match payloadAt p 10 with
    | 0 => p.length = 11
    | 1 => p.length = 17
    | _ => false
  | 2 => p.length = 0
  | 3 => p.length = 1
  | 4 => p.length = 2
  | 5 => p.length = 8
  | 6 => match payloadAt p 7 with
    | 0 => p.length = 8
    | 1 => p.length = 10
    | _ => false
  | 7 => match payloadAt p 7 with
    | 0 => p.length = 8
    | 1 => p.length = 10
    | 2 => p.length = 12
    | 3 => p.length = 14
    | _ => false
  | 8 => match payloadAt p 4 with
    | 0 => p.length = 5
    | 1 => p.length = 11
    | 2 => p.length = 11
    | 3 => p.length = 17
    | _ => false
  | 9 => match payloadAt p 2 with
    | 0 => p.length = 7
    | 1 => p.length = 13
    | _ => p.length = 7 || p.length = 13
  | 10 => p.length = 6
  | 11 => p.length = 22
  | 12 => p.length = 4
  | _ => false

/-- Cut a list of bits into bytes. -/
def bytesOfBits : Nat → List Bool → List Byte
  | 0, _ => []
  | n + 1, bs => byte (bitsValue (bs.take 8)) :: bytesOfBits n (bs.drop 8)

/-- R20, R23: the received frame, given as the bits from the first header bit to the last CRC bit, passes every check.
The payload and the CRC are counted from the payload length in the header as received. -/
def frameGood (bits : List Bool) : Bool :=
  match destuff bits with
  | none => false
  | some fs =>
    let header := bitsValue (fs.take 16)
    let length := header % 64
    let kind := header / 128 % 16
    let bodyBits := 16 + 8 * length
    decide (fs.length = bodyBits + 16) &&
      decide (bitsValue (fs.drop bodyBits) = (crc16 (fs.take bodyBits)).toNat) &&
      payloadGood kind (bytesOfBits length (fs.drop 16))

/-! ### Decimal digits (R182) -/

/-- The character of a decimal digit. -/
def digitChar (d : Nat) : Byte := byte (48 + d)

/-- The decimal digits of `n`, most significant first, padded to `w` digits. -/
def digitsOf : Nat → Nat → List Nat
  | 0, _ => []
  | w + 1, n => digitsOf w (n / 10) ++ [n % 10]

/-- A numeric field: a value too large for its width is held at the largest value the width holds. -/
def fieldDigits (w n : Nat) : List Nat := digitsOf w (min n (10 ^ w - 1))

end Sys2Proof.Machine
end

