-- ==== Sys2Proof/Machine/Flags.lean ====
section
/-! DEFINITION. What the blocks read of one another: the role, the current pattern, the ten hold factors (Table 41), and
the levels of the output pins, each a function of the state. -/

namespace Sys2Proof.Machine

/-! ### Configuration, role and node state -/

/-- The image the blocks consult while none is loaded; no role is active then (log entry 7). -/
def blankConfig : Config := { station := 0, role := .key }

/-- The configuration image in force. -/
def cfg (n : Node) : Config := n.image.getD blankConfig

/-- The node has loaded an image with this role. -/
def isRole (n : Node) (r : Role) : Bool := decide (n.image.map (·.role) = some r)

/-- The eye roles: PRINT, EMBOSS, SHADE and REWIND. -/
def eyeRole (n : Node) : Bool := isRole n .print || isRole n .emboss || isRole n .shade || isRole n .rewind

/-- The roles with a Register Loop. -/
def loopRole (n : Node) : Bool := isRole n .print || isRole n .emboss

/-- The five holding roles. -/
def holdRole (n : Node) : Bool := isRole n .key || eyeRole n

/-- The roles with a Travel Unit. -/
def travelRole (n : Node) : Bool := holdRole n

def isJoined (n : Node) : Bool := decide (n.st = .joined)

/-- JOINED or BENCHED: the states that apply completed frames (Table 13). -/
def appliesFrames (n : Node) : Bool := decide (n.st = .joined) || decide (n.st = .benched)

/-- The states that track w (Table 13). -/
def tracksW (n : Node) : Bool :=
  match n.st with
  | .listening => true
  | .joining => true
  | .joined => true
  | .benched => true
  | .muted => true
  | _ => false

/-! ### Peers -/

def peerAt (n : Node) (s : Nat) : Peer := if 1 ≤ s then n.peers.getD (s - 1) {} else {}

def setPeer (n : Node) (s : Nat) (p : Peer) : Node :=
  if 1 ≤ s then { n with peers := n.peers.set (s - 1) p } else n

/-- The Peer Table holds role `r` for station `s`, and not as BENCHED. -/
def heldAs (n : Node) (s : Nat) (r : Role) : Bool :=
  decide ((peerAt n s).role.map (·.1) = some r) && decide ((peerAt n s).state ≠ .benched)

/-- The Peer Table holds role `r` with colour slot `c` for station `s`, and not as BENCHED. -/
def heldAsSlot (n : Node) (s : Nat) (r : Role) (c : Nat) : Bool :=
  decide ((peerAt n s).role = some (r, c)) && decide ((peerAt n s).state ≠ .benched)

/-- Some entry holds role `r`, learnt since the last reset or rejoin, and not as BENCHED. -/
def learntRole (n : Node) (r : Role) : Bool :=
  n.peers.any fun p => p.learnt && decide (p.role.map (·.1) = some r) && decide (p.state ≠ .benched)

/-- Some PRINT entry with colour slot `c`, learnt, and not BENCHED. -/
def learntSlot (n : Node) (c : Nat) : Bool :=
  n.peers.any fun p => p.learnt && decide (p.role = some (.print, c)) && decide (p.state ≠ .benched)

/-! ### Records and patterns -/

def findRecord (n : Node) (x : Nat) : Option RepeatRecord := n.track.table.find? fun r => decide (r.number = x)

def newestRecord (n : Node) : Option RepeatRecord := n.track.table.getLast?

def findPattern (c : Config) (code : Nat) : Option Pattern := c.patterns.find? fun p => decide (p.code = code)

/-- R66: the current pattern. -/
def curPattern (n : Node) : Option Pattern := n.job.current.bind fun j => findPattern (cfg n) j.pattern

/-- The emboss offset of the current pattern. -/
def curEmboss (n : Node) : Option Int := (curPattern n).bind (·.embossOffset)

/-- R69: the pattern code that the job history answers for a job number. -/
def historyPattern (n : Node) (job : Nat) : Option Nat :=
  (n.job.history.find? fun j => decide (j.number = job)).map (·.pattern)

/-- Table 7: the capture range. -/
def captureRange (c : Config) : Nat := 20 * 2 ^ c.captureCode

/-- R83: the pattern uses the loop's colour slot. -/
def slotUsedBy (n : Node) (p : Pattern) : Bool :=
  if isRole n .emboss then p.embossOffset.isSome else decide ((cfg n).colourSlot < p.colourCount)

/-- R83: the slot is in use. -/
def slotInUse (n : Node) : Bool :=
  match curPattern n with
  | none => false
  | some p => slotUsedBy n p

/-- R83: the loop is held OPEN. -/
def loopHeld (n : Node) : Bool := !slotInUse n || !isJoined n

/-! ### Hold factors (Table 41) -/

/-- R101: REGISTER_UNLOCKED. -/
def registerUnlocked (n : Node) : Bool :=
  loopRole n && decide (n.track.tracker = .track) && slotInUse n && decide (n.loop.state ≠ .locked)

/-- R140: MARK_LOST. -/
def markLost (n : Node) : Bool :=
  eyeRole n && n.track.tracked &&
    (decide (n.track.tracker = .search) || decide (n.track.tracker = .align) || decide (n.track.tracker = .lost))

/-- R79: JOB_MISMATCH. -/
def jobMismatch (n : Node) : Bool := n.job.unknownPart || n.job.lengthPart || n.job.tallyPart

/-- R141: the entry is a dependency of this node and stands LOST or DOWN. -/
def peerDependencyLost (n : Node) (p : Peer) : Bool :=
  p.learnt && (decide (p.state = .lost) || decide (p.state = .down)) &&
    (match p.role with
     | some (.key, _) => true
     | some (.shade, _) => isRole n .rewind
     | some (.emboss, _) => isRole n .rewind
     | some (.print, _) => isRole n .rewind
     | _ => false)

/-- R141: PEER_LOST. -/
def peerLost (n : Node) : Bool := eyeRole n && n.peers.any (peerDependencyLost n)

/-- R126: HEAD_FAULT. -/
def headFault (n : Node) : Bool := n.shade.satPart || n.shade.fault

def causeBit (i : Nat) (b : Bool) : CauseSet := if b then BitVec.ofNat 16 (2 ^ i) else 0

/-- The active factors, in the bit order of the cause set (Table 16). -/
def factorInputs (n : Node) : CauseSet :=
  causeBit 0 (registerUnlocked n) ||| causeBit 1 (markLost n) ||| causeBit 2 n.travel.speedStep |||
    causeBit 3 n.travel.webReversed ||| causeBit 4 (jobMismatch n) ||| causeBit 5 (peerLost n) |||
    causeBit 6 n.link.linkFault ||| causeBit 7 n.shade.edge ||| causeBit 8 (headFault n) ||| causeBit 9 n.hold.operator

/-- R139: the factor set. A node without a Hold Unit has none. -/
def factorSet (n : Node) : CauseSet := if holdRole n then factorInputs n &&& (cfg n).factorMask else 0

/-- R143: the Hold Unit works while the node is JOINED and its resume window has closed. -/
def holdWorks (n : Node) : Bool := holdRole n && isJoined n && n.link.resume.isNone

/-! ### Output pins -/

/-- ATTN is high while attention is asserted (R199). -/
def pinATTN (n : Node) : Bool := decide (n.port.attention ≠ 0)

/-- FAULT is high in UNCONFIGURED only (R189). -/
def pinFAULT (n : Node) : Bool := decide (n.st = .unconfigured)

/-- NIPCMD is high in CLOSING and CLOSED (R103). -/
def pinNIPCMD (n : Node) : Bool := decide (n.nip.state = .closing) || decide (n.nip.state = .closed)

/-- CUT is active while a pulse runs (R16). -/
def pinCUT (n : Node) : Bool := n.trig.cut.isSome

/-- SHUTTER is high while a calibration run is active (R122). -/
def pinSHUTTER (n : Node) : Bool := n.shade.run.isSome

def pinDIR (n : Node) : Bool := n.loop.dir

/-- Half step periods that have passed since the issue of a train. -/
def halfPeriods (c : Config) (t : StepTrain) : Nat := 2 * c.stepRate * t.elapsed / 1000

/-- R95: STEP is high for the first half of each step period; the first pulse begins half a period after issue. -/
def stepHigh (c : Config) (t : StepTrain) : Bool :=
  decide (halfPeriods c t % 2 = 1) && decide (halfPeriods c t < 2 * t.count.natAbs)

def pinSTEP (n : Node) : Bool :=
  match n.loop.train, n.loop.tail with
  | some t, _ => stepHigh (cfg n) t
  | none, some t => stepHigh (cfg n) t
  | none, none => false

/-- Table 52. -/
def pinGATE1 (n : Node) : Bool := decide (n.label.gate = .wasteLane)
def pinGATE0 (n : Node) : Bool := decide (n.label.gate = .pass)

/-- R184: APPLY is high during its pulse. -/
def pinAPPLY (n : Node) : Bool := n.label.applyTimer.isSome

/-- R183: the ten bit times of a character on LBLD: a low start bit, eight data bits, a high stop bit. The spec gives no
order of the data bits; the least significant comes first (log entry 21). -/
def serialFrame (b : Byte) : List Bool := false :: ((List.range 8).map b.getLsbD ++ [true])

/-- R183: a block on LBLD, with its carriage return. -/
def serialBits (block : List Byte) : List Bool := block.flatMap serialFrame

/-- R183: LBLD rests high between blocks while the LABEL node is JOINED, and is low otherwise. -/
def pinLBLDRest (n : Node) : Bool := isRole n .label && isJoined n

/-- R183: the level of LBLD: while a block is sent that of the bit time reached, 9.6 of them in a millisecond, and the rest
level otherwise. -/
def pinLBLD (n : Node) : Bool :=
  match n.label.sending with
  | some (block, ms) => (serialBits block).getD (ms * 48 / 5) true
  | none => pinLBLDRest n

/-- The bits the node sends in its slot: those of the frame in flight (R20), and none once it has stopped driving (R24). -/
def txBits (n : Node) : List Bool :=
  match n.link.sending && !n.link.stopped, n.link.queue with
  | true, e :: _ => frameBits (cfg n).station e.restate e.telegram
  | _, _ => []

/-- The DOMINANT bit times the node drives outside a frame of its own: the 20 of a clash mark (R24), the 8 of a void (R23). -/
def dominantBits (n : Node) : Nat :=
  if 0 < n.link.clashMark then n.link.clashMark else if n.link.drove then 8 else 0

end Sys2Proof.Machine
end

