-- ==== Sys2Proof/Machine/Ops.lean ====
section
/-! DEFINITION. The operations the blocks share: attention, node state, offers to the transmit queue (R31), LINK_FAULT
(R30), the Hold Unit's handling of its factors and statements (R142 to R149), the Trigger Table's requests (R15, R17),
and the way a command runs on the state. -/

namespace Sys2Proof.Machine

/-- A command changes the node; the queue of waiting commands is left. -/
def runNode (f : Node → Node) (s : State) : Host.Outcome State Fault Refusal := .next { s with node := f s.node }

/-! ### Free values (log entry 4) -/

def freeNat (n : Node) : Nat := Config.freeNat n.freeIndex
def freeInt (n : Node) : Int := Config.freeInt n.freeIndex

/-- The free values up to this one are used. -/
def useFree (n : Node) (k : Nat) : Node := { n with freeIndex := n.freeIndex + k }

/-! ### Attention and node state -/

def attRequest : BitVec 4 := 1
def attHold : BitVec 4 := 2
def attNode : BitVec 4 := 4
def attAnswer : BitVec 4 := 8

/-- R199: a cause joins the set and ATTN is asserted. -/
def attend (n : Node) (c : BitVec 4) : Node := { n with port := { n.port with attention := n.port.attention ||| c } }

/-- The node state changes; a change asserts ATTN (R191, R199). -/
def setState (n : Node) (st : NodeState) : Node :=
  if n.st = st then n else attend { n with st := st } attNode

/-- R198: the slot leaves PENDING with this state, and REQUEST joins the attention causes. -/
def endRequest (n : Node) (slot : SlotState) : Node :=
  if n.port.slot = .pending then attend { n with port := { n.port with slot := slot } } attRequest else n

/-- An owner refuses a request (R71, R132, R142, R148, R163). -/
def countRefusal (n : Node) : Node := { n with port := { n.port with refusals := n.port.refusals + 1 } }

/-! ### The transmit queue -/

/-- R30: a cause of LINK_FAULT makes it active and returns the own-completion run to 0. -/
def raiseLinkFault (n : Node) : Node := { n with link := { n.link with linkFault := true, ownRun := 0 } }

/-- R32: a DOWN is queued. -/
def downQueued (n : Node) : Bool := n.link.queue.any fun e => match e.telegram with | .down _ => true | _ => false

/-- R22: the kinds that a BENCHED node sends. -/
def benchedKind : Telegram → Bool
  | .present => true
  | .resume _ => true
  | _ => false

/-- Table 13 and R32: the kinds whose offers the node takes. -/
def mayOffer (n : Node) (t : Telegram) : Bool :=
  match n.st with
  | .joining => (match t with | .join _ => true | _ => false)
  | .joined => !downQueued n
  | .benched => benchedKind t
  | _ => false

/-- How an offer ends at once. -/
inductive OfferResult where
  | placed | routineDiscarded | silent | refused
  deriving DecidableEq, Repr

/-- The first entry for which `p` holds leaves the list. -/
def removeFirst {α : Type} (p : α → Bool) : List α → Option (List α)
  | [] => none
  | x :: xs => if p x then some xs else (removeFirst p xs).map (x :: ·)

/-- R31: the oldest ROUTINE entry other than the frame in flight (the head) makes room; none when there is no such entry. -/
def evictRoutine : List QEntry → Option (List QEntry)
  | [] => none
  | h :: rest => (removeFirst (fun e => e.telegram.routine) rest).map (h :: ·)

/-- R31: an offer is taken at once. A refused RECORD is counted as dropped and makes LINK_FAULT active. -/
def enqueue (n : Node) (t : Telegram) (restate : Bool) (by_ : OfferBy) : Node × OfferResult :=
  let e : QEntry := { telegram := t, restate := restate, offerBy := by_ }
  if !mayOffer n t then (n, .silent)
  else if n.link.queue.length < 16 then
    ({ n with link := { n.link with queue := n.link.queue ++ [e] } }, .placed)
  else if t.routine then
    ({ n with link := { n.link with discarded := n.link.discarded + 1 } }, .routineDiscarded)
  else
    match evictRoutine n.link.queue with
    | some q =>
      ({ n with link := { n.link with queue := q ++ [e], discarded := n.link.discarded + 1 } }, .placed)
    | none => (raiseLinkFault { n with link := { n.link with dropped := n.link.dropped + 1 } }, .refused)

/-- A telegram whose loss nothing follows up. -/
def offerPlain (n : Node) (t : Telegram) : Node := (enqueue n t false .plain).1

/-- R31: a refused offer waits for the next completion of an own frame, in the order of refusal. -/
def refuseLater (n : Node) (r : Reoffer) : Node :=
  { n with link := { n.link with refusedOffers := n.link.refusedOffers ++ [r] } }

/-- An offer that is made again when it is refused. -/
def offerAgain (n : Node) (t : Telegram) (restate : Bool) (by_ : OfferBy) (r : Reoffer) : Node :=
  match enqueue n t restate by_ with
  | (n', .refused) => refuseLater n' r
  | (n', _) => n'

/-! ### The Hold Unit -/

/-- R143: the hold reference repeat. -/
def holdReference (n : Node) : Nat :=
  if isRole n .key then
    match n.track.newestIssued with
    | some x => x
    | none => n.track.nextRepeat.getD 1
  else
    match n.track.here with
    | some x => x
    | none =>
      match n.track.table.head? with
      | some r => r.number
      | none => numberAfter repeatRange n.link.newestRepeat

/-- The hold state changes; a change asserts ATTN (R154, R199). -/
def setHoldState (n : Node) (h : HoldState) : Node :=
  if n.hold.state = h then n else attend { n with hold := { n.hold with state := h } } attHold

/-- R144: a hold is set. -/
def setHold (n : Node) (factors : CauseSet) : Node :=
  let x := holdReference n
  setHoldState
    { n with hold := { n.hold with own := some { first := x, causes := factors }, quiet := 0, target := none,
                                   wanted := some (.set x factors) } } .held

/-- R145: entering factors grow an own open hold, and the hold state returns to HELD. -/
def growHold (n : Node) (o : OwnHold) (entering : CauseSet) : Node :=
  let grown := o.causes ||| entering
  let n1 : Node := { n with hold := { n.hold with quiet := 0, target := none } }
  setHoldState
    (if grown = o.causes then n1
     else { n1 with hold := { n1.hold with own := some { first := o.first, causes := grown },
                                           wanted := some (.set o.first grown) } }) .held

/-- R146: in HELD with the factor set empty, QUIETING begins unless the clear mode is MANUAL. -/
def beginQuiet (n : Node) (factors : CauseSet) : Node :=
  if n.hold.state = .held ∧ factors = 0 ∧ (cfg n).clearMode ≠ .manual then
    setHoldState { n with hold := { n.hold with quiet := 0 } } .quieting
  else n

/-- R144 to R146: the factor changes since they were last taken, as one event. No statement is offered. -/
def holdAbsorb (n : Node) : Node :=
  let fs := factorSet n
  let entering := fs &&& ~~~n.hold.seen
  let n1 :=
    if entering = 0 then n
    else match n.hold.own with
      | none => setHold n fs
      | some o => growHold n o entering
  let n2 := beginQuiet n1 fs
  { n2 with hold := { n2.hold with seen := fs } }

/-- The telegram of a statement (R149). -/
def statementTelegram : Statement → Telegram
  | .set x c => .holdSet x c
  | .clear x c => .holdClear x c

/-- R149: the wanted statement is offered, unless one is in offer or waits after a refusal. -/
def holdOffer (n : Node) : Node :=
  match n.hold.wanted with
  | none => n
  | some w =>
    if n.hold.inOffer ≠ none ∨ n.hold.waiting then n
    else
      match enqueue n (statementTelegram w) false .hold with
      | (n', .placed) => { n' with hold := { n'.hold with inOffer := some w } }
      | (n', .refused) => refuseLater { n' with hold := { n'.hold with waiting := true } } .hold
      | (n', _) => n'

/-- The wanted statement is offered; a LINK_FAULT that its refusal raises is a factor at once (R149). -/
def holdOfferWanted (n : Node) : Node := holdAbsorb (holdOffer n)

/-- R139: the Hold Unit takes the factor changes of a step as one event (log entry 14). Outside its working span it only
takes its inputs (R143). -/
def holdSettle (n : Node) : Node :=
  if !holdRole n then n
  else if !holdWorks n then { n with hold := { n.hold with seen := factorSet n } }
  else
    let n1 := holdAbsorb n
    if n1.hold.wanted = n.hold.wanted then n1 else holdOfferWanted n1

/-- R149: the unit clears its own open hold at repeat `m`. -/
def clearHold (n : Node) (m : Nat) : Node :=
  match n.hold.own with
  | none => n
  | some o =>
    holdOfferWanted
      (setHoldState
        { n with hold := { n.hold with own := none, quiet := 0, target := none, wanted := some (.clear m o.causes) } } .clear)

/-- R146: a quiet repeat. -/
def quietRepeat (n : Node) : Node :=
  if !holdWorks n ∨ n.hold.state ≠ .quieting then n
  else if n.hold.quiet + 1 < (cfg n).quietQ then { n with hold := { n.hold with quiet := n.hold.quiet + 1 } }
  else
    match (cfg n).clearMode with
    | .quietAtRoll =>
      setHoldState { n with hold := { n.hold with quiet := n.hold.quiet + 1, target := some (holdReference n) } } .waitingRoll
    | _ => clearHold n (holdReference n)

/-- The Hold Unit at a match report or an issue: the factor changes first, then the quiet repeat (R139, R146). -/
def holdReport (n : Node) : Node := quietRepeat (holdSettle n)

/-- R154: the Hold Unit returns to its reset values; the hold list is kept. -/
def resetHoldUnit (n : Node) : Node :=
  let n1 := setHoldState n .clear
  { n1 with hold := { list := n1.hold.list } }

/-! ### The Trigger Table -/

/-- R15: the answer to an arm request. -/
inductive ArmAnswer where
  | armed | late | refused
  deriving DecidableEq, Repr

/-- R15: an entry is placed after every entry whose position is at or before its own. -/
def insertTrigger (e : TriggerEntry) : List TriggerEntry → List TriggerEntry
  | [] => [e]
  | x :: xs => if passed e.position x.position then x :: insertTrigger e xs else e :: x :: xs

/-- R16: what a CUT firing does at the pin; a running pulse restarts. -/
def cutPulse (n : Node) : Node := { n with trig := { n.trig with cut := some 20 } }

/-- R15: an arm request. At LATE a CUT drives its pulse here; a nip request is taken by its owner. -/
def armTrigger (n : Node) (out : TriggerOutput) (p : Pos) (tag : Nat) : Node × ArmAnswer :=
  let e : TriggerEntry := { output := out, position := p, tag := tag }
  let rest := n.trig.entries.filter fun x => decide (x.tag ≠ tag)
  if passed n.travel.position p then (if out = .cut then cutPulse n else n, .late)
  else if rest.length < n.trig.entries.length then
    ({ n with trig := { n.trig with entries := insertTrigger e rest } }, .armed)
  else if n.trig.entries.length < 8 then
    ({ n with trig := { n.trig with entries := insertTrigger e n.trig.entries } }, .armed)
  else (n, .refused)

/-- R17: the answer to a cancel request. -/
inductive CancelAnswer where
  | cancelled | notFound
  deriving DecidableEq, Repr

/-- R17: a cancel request: an unfired entry of the tag leaves the table. -/
def cancelTrigger (n : Node) (tag : Nat) : Node × CancelAnswer :=
  ({ n with trig := { n.trig with entries := n.trig.entries.filter fun x => decide (x.tag ≠ tag) } },
   if n.trig.entries.any (fun x => decide (x.tag = tag)) then .cancelled else .notFound)

/-! ### What a move of the tracker does in the other blocks -/

/-- R6: the unit clears its repeat speed memory and makes SPEED_STEP inactive. -/
def travelForget (n : Node) : Node :=
  { n with travel := { n.travel with lastBoundary := none, lastSpeed := none, speedStep := false } }

/-- R91: the loop returns to OPEN; the step train and the settle count are kept. -/
def loopToOpen (n : Node) : Node :=
  if n.loop.state = .opened then n
  else { n with loop := { n.loop with state := .opened, openRun := 0, lockRun := 0, unlockRun := 0, absentRun := 0 } }

/-- R119, R126: the shade window in progress is dropped. -/
def dropShadeWindow (n : Node) : Node :=
  if n.shade.window.isSome then { n with shade := { n.shade with window := none, edge := false } } else n

/-- The tracker state changes. Leaving TRACK opens the loop (R91); an entry to IDLE, SEARCH or LOST clears the repeat
speed memory (R6) and drops the shade window (R119). -/
def trackerTo (n : Node) (st : TrackerState) : Node :=
  let old := n.track.tracker
  let n1 : Node := { n with track := { n.track with tracker := st } }
  if old = st then n1
  else
    let n2 := if old = .track then loopToOpen n1 else n1
    match st with
    | .align => n2
    | .track => n2
    | _ => dropShadeWindow (travelForget n2)

/-- R56, R58: SEARCH is entered with both counts 0 and no predicted position. -/
def clearSearch (n : Node) : Node :=
  { n with track := { n.track with alignCount := 0, missCount := 0, predicted := none } }

end Sys2Proof.Machine
end

