-- ==== Sys2Proof/Machine/Loop.lean ====
section
/-! DEFINITION. The Register Loop (R82 to R102): runs and states, corrections, step trains, settling and the REGISTER
telegram. -/

namespace Sys2Proof.Machine

/-- R85: a result. `error` is absent for a result of a synthesised mark; `tracked` is the tracker state of its report. -/
structure LoopInput where
  number : Nat
  error : Option Int
  tracked : Bool
  deriving DecidableEq, Repr

/-- R82: an error in the capture band is near. -/
def isNear (c : Config) (e : Int) : Bool := decide (2 * e.natAbs ≤ captureRange c)

/-- R87: the lock run on entry to CAPTURE. -/
def entryLockRun (c : Config) (e : Int) : Nat := if e.natAbs ≤ c.lockWindow then 1 else 0

/-- R87, R88, R90: CAPTURE is entered by this error. -/
def enterCapture (c : Config) (e : Int) (l : RegLoop) : RegLoop :=
  { l with state := .capture, openRun := 0, unlockRun := 0, lockRun := entryLockRun c e }

/-- R87: a present result in OPEN. -/
def openPresent (c : Config) (qualifies : Bool) (e : Int) (l : RegLoop) : RegLoop :=
  if !qualifies then { l with openRun := 0 }
  else if l.openRun + 1 < 2 then { l with openRun := l.openRun + 1 }
  else if isNear c e then enterCapture c e l
  else { l with state := .far, openRun := 0 }

/-- R88: a present result in FAR. -/
def farPresent (c : Config) (e : Int) (l : RegLoop) : RegLoop := if isNear c e then enterCapture c e l else l

/-- R89: a present result in CAPTURE. -/
def capturePresent (c : Config) (e : Int) (l : RegLoop) : RegLoop :=
  if c.lockWindow < e.natAbs then { l with lockRun := 0 }
  else if l.lockRun + 1 < 4 then { l with lockRun := l.lockRun + 1 }
  else { l with state := .locked, lockRun := 0, unlockRun := 0 }

/-- R90: a present result in LOCKED. -/
def lockedPresent (c : Config) (e : Int) (l : RegLoop) : RegLoop :=
  if e.natAbs ≤ c.unlockWindow then { l with unlockRun := 0 }
  else if l.unlockRun + 1 < 2 then { l with unlockRun := l.unlockRun + 1 }
  else enterCapture c e l

/-- R86 to R90: the runs and the state at a present result. -/
def presentResult (c : Config) (qualifies : Bool) (e : Int) (l : RegLoop) : RegLoop :=
  let l0 : RegLoop := { l with absentRun := 0 }
  match l.state with
  | .opened => openPresent c qualifies e l0
  | .far => farPresent c e l0
  | .capture => capturePresent c e l0
  | .locked => lockedPresent c e l0

/-- R86, R91: the runs and the state at an absent result. -/
def absentResult (l : RegLoop) : RegLoop :=
  match l.state with
  | .opened => { l with openRun := 0 }
  | _ =>
    if l.absentRun + 1 < 3 then { l with absentRun := l.absentRun + 1, lockRun := 0, unlockRun := 0 }
    else { l with state := .opened, openRun := 0, lockRun := 0, unlockRun := 0, absentRun := 0 }

/-- R94: the step count of a correction in this state. -/
def correctionSteps (c : Config) (st : LoopState) (e : Int) : Int :=
  let r := if st = .locked then c.lockReduction else 0
  if st = .locked ∧ 2 * e.natAbs ≤ c.lockWindow then 0
  else
    clampInt (-(c.maxCorrection : Int)) c.maxCorrection
      (roundHalfAway (-e * c.captureGain * c.compensatorScale) (16 * 2 ^ r * 1000))

/-- R93: a present result is handled for correction. -/
def corrects (l : RegLoop) : Bool :=
  (decide (l.state = .capture) || decide (l.state = .locked)) && l.train.isNone && decide (l.settle = 0)

/-- R93, R95: the correction of a result; a count of 0 issues no train. -/
def issueCorrection (c : Config) (number : Nat) (steps : Int) (l : RegLoop) : RegLoop :=
  let l1 : RegLoop := { l with lastSteps := steps, lastStepsRepeat := some number }
  if steps = 0 then l1
  else { l1 with train := some { count := steps, number := number, elapsed := 0 }
                 dir := decide (0 < steps) != decide (c.dirSense = .inverted) }

/-- R116: a REGISTER of the EMBOSS node takes the oldest coverage report. -/
def takeReport (n : Node) : Option (Nat × Coverage) × Node :=
  match n.nip.reports with
  | r :: rest => if isRole n .emboss then (some r, { n with nip := { n.nip with reports := rest } }) else (none, n)
  | [] => (none, n)

/-- R98: the REGISTER telegram of a result is offered. -/
def offerRegister (n : Node) (i : LoopInput) (steps : Int) : Node :=
  let r := takeReport n
  offerPlain r.2
    (.register { number := i.number, slot := (cfg n).colourSlot, state := n.loop.state, steps := steps,
                 error := i.error, nip := r.1 })

/-- R87: a present result counts towards the open run. -/
def qualifies (n : Node) (i : LoopInput) : Bool :=
  i.tracked && decide (n.track.tracker = .track) && !loopHeld n

/-- R85: the loop handles one result whole: runs and state, then the correction, then the offer. -/
def loopResult (n : Node) (i : LoopInput) : Node :=
  let c := cfg n
  let l1 := match i.error with
    | some e => presentResult c (qualifies n i) e n.loop
    | none => absentResult n.loop
  let steps := match i.error with
    | some e => if corrects l1 then correctionSteps c l1.state e else 0
    | none => 0
  let l2 := match i.error with
    | some _ => if corrects l1 then issueCorrection c i.number steps l1 else l1
    | none => l1
  let n1 := offerRegister { n with loop := l2 } i steps
  { n1 with loop := { n1.loop with lastError := i.error, lastErrorRepeat := some i.number } }

/-- R97: a match report lowers a settle count above 0. -/
def settleReport (n : Node) : Node := { n with loop := { n.loop with settle := n.loop.settle - 1 } }

/-- R83, R91: the hold begins: a loop that is not OPEN goes to OPEN. -/
def holdLoop (n : Node) : Node := if loopHeld n then loopToOpen n else n

/-- R96: the length that a settle count divides by; none when the node has no record and no pattern. -/
def settleLength (n : Node) : Option Nat :=
  match n.track.here.bind (findRecord n) with
  | some r => some r.length
  | none =>
    match newestRecord n with
    | some r => some r.length
    | none => (curPattern n).map (·.nominal)

/-- R96: the settle count at the completion of a train. A length of 0 leaves the quotient unstated (log entry 4). -/
def settleCount (n : Node) : Nat :=
  match settleLength n with
  | none => 1
  | some 0 => freeNat n
  | some len => ceilDiv (cfg n).printToEye len + 1

/-- R95: the last pulse of the train has ended. -/
def trainDone (c : Config) (t : StepTrain) : Bool :=
  decide ((2 * t.count.natAbs + 1) * 1000 ≤ 2 * c.stepRate * t.elapsed)

/-- STEP_TRAIN_COMPLETION (R95, R96); the pulse that a rejoin cut sets no settle count (R102). -/
def stepTrainCompletion (n : Node) : Node :=
  match n.loop.train with
  | some t =>
    if trainDone (cfg n) t then
      let n1 := if settleLength n = some 0 then useFree n 1 else n
      { n1 with loop := { n1.loop with train := none, settle := settleCount n } }
    else n
  | none =>
    match n.loop.tail with
    | some t => if trainDone (cfg n) t then { n with loop := { n.loop with tail := none } } else n
    | none => n

/-- R95, R102: at a rejoin the pulse in progress is output to its end, and no further pulse. -/
def trainTail (c : Config) : Option StepTrain → Option StepTrain
  | none => none
  | some t =>
    let h := halfPeriods c t
    if h = 0 ∨ 2 * t.count.natAbs < h then none
    else some { t with count := ((h + 1) / 2 : Nat) }

end Sys2Proof.Machine
end

