-- ==== Sys2Proof/Machine/Travel.lean ====
section
/-! DEFINITION. The Travel Unit (R1 to R7): encoder counts, reverse debt, advances, speed and repeat boundaries, with what
an advance does in the blocks that watch the local position. -/

namespace Sys2Proof.Machine

/-- `k` times the same thing. -/
def iterate (f : Node → Node) : Nat → Node → Node
  | 0, n => n
  | k + 1, n => iterate f k (f n)

/-- R115: the nip state sets its marks on a coverage span. -/
def markSpan (st : NipState) (sp : CoverageSpan) : CoverageSpan :=
  match st with
  | .closed => { sp with sawClosed := true }
  | .opened => { sp with sawOther := true }
  | _ => { sp with sawOther := true, sawMoving := true }

/-- R114: a span is at the nip once the local position has passed its start. -/
def passSpan (p : Pos) (st : NipState) (sp : CoverageSpan) : CoverageSpan :=
  if !sp.atNip ∧ passed p sp.start then markSpan st { sp with atNip := true } else sp

/-- R12: how many of the nine cell centres the local position has passed. -/
def centresPassed (c : Config) (sp : TallySpan) (p : Pos) : Nat :=
  ((List.range 9).filter fun i => passed p (movePos sp.edge (c.tallyStart + i * c.tallyPitch : Nat))).length

/-- R12: the EYE line is sampled at each centre as the local position passes it. -/
def sampleCells (n : Node) : Node :=
  match n.marks.span with
  | none => n
  | some sp =>
    let k := centresPassed (cfg n) sp n.travel.position - sp.cells.length
    { n with marks := { n.marks with span := some { sp with cells := sp.cells ++ List.replicate k n.pins.eyeDark } } }

/-- R56: at an advance with a record in the table the tracker leaves IDLE for SEARCH. -/
def leaveIdle (n : Node) : Node :=
  if eyeRole n ∧ n.track.tracker = .idle ∧ n.track.table ≠ [] then clearSearch (trackerTo n .search) else n

/-- R118: a sample is due at each advance to a multiple of 10 ticks while the SHADE node is JOINED. -/
def countSample (n : Node) : Node :=
  if isRole n .shade ∧ isJoined n ∧ n.travel.position.toNat % 10 = 0 then
    { n with shade := { n.shade with samplesDue := n.shade.samplesDue + 1 } }
  else n

/-- R114, R115: the local position passes the starts of the coverage spans; the nip state now sets the mark. A trigger entry that an
earlier advance of the same count reached fires after it, in TRIGGER_FIRE: the model's choice (log entry 60). -/
def passSpans (n : Node) : Node :=
  { n with nip := { n.nip with spans := n.nip.spans.map (passSpan n.travel.position n.nip.state) } }

/-- R2, R5: one advance of the local position. -/
def moveOn (n : Node) : Node :=
  { n with travel := { n.travel with position := n.travel.position + 1, advances := n.travel.advances + 1,
                                     motion := .moving, standstill := some 200 } }

/-- An advance, with what it does in the other blocks. -/
def advance (n : Node) : Node := passSpans (countSample (leaveIdle (sampleCells (moveOn n))))

/-- R2, R3: a forward tick pays one tick of debt, or is an advance. The tick that pays the last ends WEB_REVERSED. -/
def forwardTick (n : Node) : Node :=
  if n.travel.debt = 0 then advance n
  else { n with travel := { n.travel with debt := n.travel.debt - 1,
                                          webReversed := n.travel.webReversed && decide (n.travel.debt ≠ 1) } }

/-- R12: the tally span has begun at the local position. -/
def spanBegun (c : Config) (sp : TallySpan) (p : Pos) : Bool :=
  decide (2 * (c.tallyStart : Int) ≤ 2 * posDiff p sp.edge + c.tallyPitch)

/-- R8, R12: the debt rises above 0: the mark in progress is discarded and a span that has begun fails. -/
def debtBegins (n : Node) : Node :=
  { n with marks := { n.marks with
      mark := none,
      span := n.marks.span.map fun sp =>
        if spanBegun (cfg n) sp n.travel.position then { sp with failed := true } else sp } }

/-- R2, R3: a reverse tick adds one to the debt, and makes WEB_REVERSED active above the backlash limit. -/
def reverseTick (n : Node) : Node :=
  if n.travel.debt < 16777215 then
    let n1 := if n.travel.debt = 0 then debtBegins n else n
    { n1 with travel := { n1.travel with debt := n1.travel.debt + 1,
                                         webReversed := n1.travel.webReversed ||
                                           decide ((cfg n).backlash < n1.travel.debt + 1) } }
  else n

/-- R1: a transition is valid when exactly one line changes level. -/
def validCount (p : Pins) (a b : Bool) : Bool := (a != p.encA) != (b != p.encB)

/-- R1: the phase order of a valid transition is the one of ENCA leading ENCB. -/
def aLeads (p : Pins) (a b : Bool) : Bool := if a != p.encA then a != b else a == b

/-- R1: a forward count. -/
def forwardCount (c : Config) (p : Pins) (a b : Bool) : Bool :=
  match c.encoderSense with
  | .aLeads => aLeads p a b
  | .bLeads => !aLeads p a b

/-- R1: the ticks a count produces and the remainder it leaves; `up` is the remainder in the direction of the count,
after the numerator was added. A denominator of 0 is outside Table 5; its outcome is free (log entry 4). -/
def scaleCount (n : Node) (up : Int) : Nat × Int :=
  let den := (cfg n).denominator
  if den = 0 then (freeNat n, freeInt n)
  else if up < den then (0, up)
  else (up.toNat / den, (up.toNat % den : Nat))

/-- R1: one count. -/
def takeCount (n : Node) (forward : Bool) : Node :=
  let num : Int := (cfg n).numerator
  let r := n.travel.remainder
  let s := scaleCount n (if forward then r + num else num - r)
  let n1 := if (cfg n).denominator = 0 then useFree n 1 else n
  let n2 : Node := { n1 with travel := { n1.travel with remainder := if forward then s.2 else -s.2 } }
  iterate (if forward then forwardTick else reverseTick) s.1 n2

/-- ENCODER_COUNT: the pair takes these levels (R1). -/
def encoderCount (a b : Bool) (n : Node) : Node :=
  let n1 : Node := { n with pins := { n.pins with encA := a, encB := b } }
  if travelRole n ∧ validCount n.pins a b then
    holdSettle (takeCount n1 (forwardCount (cfg n) n.pins a b))
  else n1

/-- SPEED_INTERVAL: a 10 ms interval ends (R4). -/
def speedInterval (n : Node) : Node :=
  if n.travel.intervalLeft = 0 then
    { n with travel := { n.travel with speed := min n.travel.advances 65535, advances := 0, intervalLeft := 10 } }
  else n

/-- R6: the repeat speed from the last boundary; a time difference of 0 leaves it unstated (log entry 4). -/
def repeatSpeed (n : Node) (edge : Pos) (time : Nat) : Option Nat :=
  n.travel.lastBoundary.map fun b =>
    if time ≤ b.2 then freeNat n else (posDiff edge b.1).toNat * 10 / (time - b.2)

/-- R6: the new repeat speed differs from the last by more than the threshold. -/
def speedSteps (c : Config) (new old : Nat) : Bool :=
  decide (c.speedThreshold * old < 100 * ((new : Int) - old).natAbs)

/-- R6: a repeat boundary. `compare` is the tracker's condition. SPEED_STEP stands from the boundary that found a step to the
next one, so a boundary without a comparison ends it. -/
def boundary (n : Node) (edge : Pos) (time : Nat) (compare : Bool) : Node :=
  let v := repeatSpeed n edge time
  let step :=
    match v, n.travel.lastSpeed with
    | some new, some old => compare && decide (0 < old) && speedSteps (cfg n) new old
    | _, _ => false
  let n1 := match n.travel.lastBoundary with
    | some b => if time ≤ b.2 then useFree n 1 else n
    | none => n
  { n1 with travel := { n1.travel with speedStep := step, lastBoundary := some (edge, time),
                                       lastSpeed := match v with | some x => some x | none => n1.travel.lastSpeed } }

end Sys2Proof.Machine
end

