-- ==== Sys2Proof/Machine/Marks.lean ====
section
/-! DEFINITION. The Mark Reader (R8 to R14): register windows with their candidates, the index pulses of the emboss roll,
the tally span, the observed tally (Table 9) and the tally check it feeds (R78, R80). -/

namespace Sys2Proof.Machine

/-! ### Register windows (R10, R11) -/

/-- The candidate at `e` lies within the window around `expected`. -/
def inRegWindow (c : Config) (expected e : Pos) : Bool := decide ((posDiff e expected).natAbs ≤ captureRange c)

/-- R10: the nearer of two candidates, the earlier when they are equally near. -/
def nearer (expected : Pos) (old : Option Pos) (new : Pos) : Option Pos :=
  match old with
  | none => some new
  | some o =>
    let d := (posDiff o expected).natAbs
    let d' := (posDiff new expected).natAbs
    if d' < d ∨ (d' = d ∧ posDiff new o < 0) then some new else some o

/-- The nearest untaken candidate of a history. -/
def bestCandidate (c : Config) (expected : Pos) (h : List HistoryMark) : Option Pos :=
  (h.filter fun m => !m.taken && inRegWindow c expected m.edge).foldl (fun b m => nearer expected b m.edge) none

/-- R10: no later mark can be nearer: a candidate lies at or after the expected position, or the local position has
passed the expected position by the distance of the nearest candidate before it, or the window end. -/
def windowCertain (c : Config) (p : Pos) (w : RegWindow) : Bool :=
  decide ((captureRange c : Int) ≤ posDiff p w.expected) ||
    (match w.best with
     | none => false
     | some b => decide (0 ≤ posDiff b w.expected) || decide (-(posDiff b w.expected) ≤ posDiff p w.expected))

/-- The first untaken mark at this edge becomes taken. -/
def takeMark (e : Pos) : List HistoryMark → List HistoryMark
  | [] => []
  | m :: ms => if m.edge = e ∧ !m.taken then { m with taken := true } :: ms else m :: takeMark e ms

def takeMarkOf (e : Option Pos) (h : List HistoryMark) : List HistoryMark :=
  match e with
  | none => h
  | some e => takeMark e h

/-- R10: the reader takes the window's result and hands it to the Register Loop; the chosen mark becomes taken. A result
of a window opened for a synthesised mark is handed over as absent (R85). -/
def takeWindow (n : Node) (w : RegWindow) : Node :=
  let n1 : Node := { n with marks := { n.marks with
      window := none,
      history := if isRole n .emboss then n.marks.history else takeMarkOf w.best n.marks.history,
      indexes := if isRole n .emboss then takeMarkOf w.best n.marks.indexes else n.marks.indexes } }
  loopResult n1
    { number := w.number,
      error := if w.synthesised then none else w.best.map fun b => posDiff b w.expected,
      tracked := w.tracked }

/-- The result is taken when it is certain. -/
def takeIfCertain (n : Node) : Node :=
  match n.marks.window with
  | none => n
  | some w => if windowCertain (cfg n) n.travel.position w then takeWindow n w else n

/-- R10: a new report first closes the open window (log entry 12). -/
def closeWindow (n : Node) : Node :=
  match n.marks.window with
  | none => n
  | some w => takeWindow n w

/-- A mark or pulse that arrives while the window is open is a candidate of it. -/
def offerCandidate (n : Node) (e : Pos) : Node :=
  match n.marks.window with
  | none => n
  | some w =>
    if inRegWindow (cfg n) w.expected e then
      takeIfCertain { n with marks := { n.marks with window := some { w with best := nearer w.expected w.best e } } }
    else n

/-- R10, R11: the expected position of the repeat matched at `edge`; none when no window opens. -/
def expectedPosition (n : Node) (edge : Pos) : Option Pos :=
  match curPattern n with
  | none => none
  | some p =>
    if isRole n .emboss then p.embossOffset.map fun o => movePos (movePos edge (cfg n).eyeToNip) o
    else if slotUsedBy n p then some (movePos edge (p.colourOffsets.getD ((cfg n).colourSlot - 1) 0))
    else none

/-- R10, R85: at a match report of a loop role a window opens for the repeat, or an absent error is handed over. -/
def openWindow (n : Node) (number : Nat) (edge : Pos) (synthesised tracked : Bool) : Node :=
  if !loopRole n then n
  else
    match expectedPosition n edge with
    | none => loopResult n { number := number, error := none, tracked := tracked }
    | some x =>
      let h := if isRole n .emboss then n.marks.indexes else n.marks.history
      takeIfCertain { n with marks := { n.marks with
        window := some { number := number, expected := x, best := bestCandidate (cfg n) x h,
                         synthesised := synthesised, tracked := tracked } } }

/-- REGISTER_WINDOW_END: the local position passes the point at which the result is certain (R10). -/
def registerWindowEnd (n : Node) : Node := holdSettle (takeIfCertain n)

/-- R9: a fifth mark pushes out the oldest, which counts as stray when no window took it. -/
def placeColour (n : Node) (e : Pos) : Node :=
  let h := n.marks.history ++ [{ edge := e, taken := false }]
  if h.length ≤ 4 then { n with marks := { n.marks with history := h } }
  else
    let lost := match h.head? with
      | some m => !m.taken
      | none => false
    { n with marks := { n.marks with history := h.drop 1, stray := n.marks.stray + (if lost then 1 else 0) } }

/-- R9, R10: a COLOUR mark at the PRINT node. The oldest mark that it pushes out is counted stray before the open window can
take it as its result; the order of the two is the model's choice (log entry 50). -/
def colourMark (n : Node) (e : Pos) : Node := offerCandidate (placeColour n e) e

/-- EMBOSS_INDEX: a rising edge on INDEX at the EMBOSS node (R11). -/
def embossIndex (n : Node) : Node :=
  if isRole n .emboss then
    let p := n.travel.position
    let h := n.marks.indexes ++ [{ edge := p, taken := false }]
    holdSettle (offerCandidate { n with marks := { n.marks with indexes := h.drop (h.length - 4) } } p)
  else n

/-! ### The observed pattern and the tally check (R78, R80) -/

/-- R80: the observed pattern. -/
def observedPatternOf (n : Node) : Option Nat :=
  match n.job.observedLength, n.marks.observed with
  | some len, some code =>
    ((cfg n).patterns.find? fun p => decide (p.code = code) && decide (p.windowMin ≤ len) && decide (len ≤ p.windowMax)).map
      (·.code)
  | _, _ => none

/-- R80: the observed pattern is formed again; it stays none in the KEY and LABEL roles. -/
def formObserved (n : Node) : Node :=
  { n with job := { n.job with observedPattern := if eyeRole n then observedPatternOf n else none } }

/-- R78: the tally check, unless it is suspended. -/
def tallyCheck (n : Node) : Node :=
  if n.job.suspension ≠ 0 then n
  else
    { n with job := { n.job with tallyPart :=
        match n.marks.observed, n.job.current with
        | some v, some j => decide (v ≠ j.pattern)
        | _, _ => false } }

/-! ### Tally reads (R12, R13) -/

/-- R13, Table 9: the observed tally after a read enters. -/
def observeTally (before : Option Nat) (older newer : Option Nat) : Option Nat :=
  match before with
  | none =>
    (match older, newer with
     | some j, some k => if j = k then some k else none
     | _, _ => none)
  | some v =>
    (match older, newer with
     | some j, some k => if j = k ∧ k ≠ v then some k else some v
     | none, some k => if k ≠ v then none else some v
     | _, _ => some v)

/-- R12: the read of nine cells, dark being true: cells 0 to 7 are the code, and the number of dark cells is odd. -/
def readCells (cells : List Bool) : Option Nat :=
  let code := bitsValue (cells.take 8)
  if cells.length = 9 ∧ (cells.filter (· = true)).length % 2 = 1 ∧ code ≠ 0 then some code else none

/-- R13: a read enters the last two; a change of the observed tally is handed to the Job Unit. With one read held there is
no pair, and the observed tally stays. -/
def enterRead (n : Node) (r : Option Nat) : Node :=
  let reads := (n.marks.reads ++ [r]).drop (n.marks.reads.length - 1)
  let obs :=
    match reads with
    | [o, w] => observeTally n.marks.observed o w
    | _ => n.marks.observed
  let n1 : Node := { n with marks := { n.marks with reads := reads, observed := obs } }
  if obs = n.marks.observed then n1 else tallyCheck (formObserved n1)

/-- R78: a read from a span that began at or after the key mark of the switch lowers the suspension count; at 0 the check
is made at once. -/
def lowerSuspension (n : Node) (stale : Bool) : Node :=
  if stale ∨ n.job.suspension = 0 then n
  else
    let n1 : Node := { n with job := { n.job with suspension := n.job.suspension - 1 } }
    if n1.job.suspension = 0 then tallyCheck n1 else n1

/-- R12: the span ends with this read. -/
def endSpan (n : Node) (sp : TallySpan) (r : Option Nat) : Node :=
  lowerSuspension (enterRead { n with marks := { n.marks with span := none } } r) sp.stale

/-- R12: a key mark that arrives while a span is in progress ends that span with a failed read. One that arrives before the
span of the earlier key edge has begun does the same, the model's choice (log entry 51). -/
def failSpan (n : Node) : Node :=
  match n.marks.span with
  | none => n
  | some sp => endSpan n sp none

def startSpan (n : Node) (edge : Pos) : Node :=
  { n with marks := { n.marks with span := some { edge := edge, cells := [], failed := false, stale := false } } }

/-- R12: the local position has passed the end of the span, half a pitch after cell 8. -/
def spanOver (c : Config) (sp : TallySpan) (p : Pos) : Bool :=
  decide (2 * (c.tallyStart : Int) + 17 * c.tallyPitch ≤ 2 * posDiff p sp.edge)

/-- R8: a position lies inside the tally span. -/
def inTallySpan (c : Config) (sp : TallySpan) (p : Pos) : Bool :=
  spanBegun c sp p && decide (2 * posDiff p sp.edge ≤ 2 * (c.tallyStart : Int) + 17 * c.tallyPitch)

/-- TALLY_SPAN_END (R12). -/
def tallySpanEnd (n : Node) : Node :=
  match n.marks.span with
  | none => n
  | some sp =>
    if spanOver (cfg n) sp n.travel.position then
      holdSettle (endSpan n sp (if sp.failed then none else readCells sp.cells))
    else n

/-- MARK_LEADING_EDGE: a light-to-dark edge on EYE; an edge during reverse debt is ignored (R8). -/
def markLeadingEdge (n : Node) : Node :=
  if n.pins.eyeDark then n
  else
    let n1 : Node := { n with pins := { n.pins with eyeDark := true } }
    if eyeRole n ∧ n.travel.debt = 0 then
      { n1 with marks := { n1.marks with mark := some {
          edge := n.travel.position, time := n.now,
          inSpan := match n.marks.span with
            | none => false
            | some sp => inTallySpan (cfg n) sp n.travel.position } } }
    else n1

end Sys2Proof.Machine
end

