-- ==== Sys2Proof/Machine/Nip.lean ====
section
/-! DEFINITION. The Nip Controller (R103 to R117): nip states, the regular close, splice passages and coverage. -/

namespace Sys2Proof.Machine

/-- R103, R115: the nip state changes; the newest span at the nip takes the marks of the new state. -/
def setNip (n : Node) (st : NipState) : Node :=
  let newest := (n.nip.spans.filter (·.atNip)).length
  { n with nip := { n.nip with
      state := st,
      spans := n.nip.spans.mapIdx fun i sp => if sp.atNip ∧ i + 1 = newest then markSpan st sp else sp } }

/-- Each entry to CLOSING or OPENING starts the actuation timer (R103). -/
def moveNip (n : Node) (st : NipState) : Node :=
  let n1 := setNip n st
  { n1 with nip := { n1.nip with actuation := some (cfg n).actuationTime } }

/-- R104: an open request is always taken. -/
def openNip (n : Node) : Node :=
  match n.nip.state with
  | .opened => n
  | .opening => { n with nip := { n.nip with waitingClose := false } }
  | .closing => moveNip n .opening
  | .closed => moveNip n .opening

/-- R105, R106: the close gate. -/
def closeGate (n : Node) : Bool :=
  (curEmboss n).isSome && decide (n.loop.state = .locked) && decide (n.travel.motion = .moving) && n.nip.passage.isNone

/-- R105: a close request; one that fails the gate is dropped. -/
def closeNip (n : Node) : Node :=
  if closeGate n then
    match n.nip.state with
    | .opened => moveNip n .closing
    | .opening => { n with nip := { n.nip with waitingClose := true } }
    | _ => n
  else n

/-- R107: an armed regular close is cancelled with tag 1. -/
def cancelRegular (n : Node) : Node :=
  if n.nip.regular then
    let n1 := (cancelTrigger n 1).1
    { n1 with nip := { n1.nip with regular := false } }
  else n

/-- ACTUATION_COMPLETION: the actuation timer expires (R103, R105). -/
def actuationCompletion (n : Node) : Node :=
  if n.nip.actuation = some 0 then
    let n0 : Node := { n with nip := { n.nip with actuation := none } }
    match n.nip.state with
    | .closing => setNip n0 .closed
    | .opening =>
      let n1 := setNip n0 .opened
      if n1.nip.waitingClose then closeNip { n1 with nip := { n1.nip with waitingClose := false } } else n1
    | _ => n0
  else n

/-! ### The regular close (R107) -/

/-- R107: the conditions of the regular close at a real match report. -/
def regularDue (n : Node) : Bool :=
  (decide (n.nip.state = .opened) || decide (n.nip.state = .opening)) && !n.nip.regular && closeGate n

def testRegular (n : Node) (edge : Pos) : Node :=
  if regularDue n then
    match armTrigger n .nipClose (movePos edge (cfg n).eyeToNip) 1 with
    | (n1, .armed) => { n1 with nip := { n1.nip with regular := true } }
    | (n1, .late) => closeNip n1
    | (n1, .refused) => n1
  else n

/-! ### Splice passages (R110 to R113) -/

def setPassage (n : Node) (p : Option Passage) : Node := { n with nip := { n.nip with passage := p } }

/-- R113: the passage ends, and the re-close is a close request. -/
def endPassage (n : Node) : Node := closeNip (setPassage n none)

/-- The open arm is done. -/
def openDone (n : Node) : Node := setPassage n (n.nip.passage.map fun q => { q with openArm := .done })

/-- R111, R112: NIP_OPEN is armed with tag 2 at `o`. -/
def armOpen (n : Node) (o : Pos) : Node :=
  match armTrigger n .nipOpen o 2 with
  | (n1, .armed) => setPassage n1 (n1.nip.passage.map fun q => { q with openArm := .armed o })
  | (n1, _) => openDone (openNip n1)

/-- R111, R112: NIP_CLOSE is armed with tag 3 at the re-close position. -/
def armReclose (n : Node) : Node :=
  match n.nip.passage with
  | none => n
  | some q =>
    match armTrigger n .nipClose q.reclose 3 with
    | (n1, .armed) => setPassage n1 (some { q with recloseArmed := true })
    | (n1, .late) => endPassage n1
    | (n1, .refused) => n1

/-- R111: a splice when no passage is active. `o` is none for an open at once. -/
def startPassage (n : Node) (o : Option Pos) (c : Pos) : Node :=
  let n1 := setPassage (cancelRegular n) (some { openArm := .none, reclose := c, recloseArmed := false })
  let n2 := match o with
    | none => openDone (openNip n1)
    | some o => armOpen n1 o
  armReclose n2

/-- R111: the open of a merging splice. -/
def mergeOpen (n : Node) (q : Passage) (o : Option Pos) : Node :=
  match o, q.openArm with
  | none, .armed _ => openDone (cancelTrigger (openNip n) 2).1
  | none, _ => openDone (openNip n)
  | some o, .armed p => if 0 < posDiff p o then armOpen n o else n
  | some _, _ => n

/-- R111: a splice while a passage is active merges into it. -/
def mergePassage (n : Node) (q : Passage) (o : Option Pos) (c : Pos) : Node :=
  let n1 := mergeOpen n q o
  if 0 < posDiff c q.reclose then
    armReclose (setPassage n1 (n1.nip.passage.map fun q => { q with reclose := c }))
  else n1

def takeSplice (n : Node) (o : Option Pos) (c : Pos) : Node :=
  match n.nip.passage with
  | none => startPassage n o c
  | some q => mergePassage n q o c

/-- R112: a re-close that waits is armed again at each match report. -/
def retryReclose (n : Node) : Node :=
  match n.nip.passage with
  | some q => if q.recloseArmed then n else armReclose n
  | none => n

/-- R110: the splices of a match report, those of missed records first. -/
def nipSplices (n : Node) (edge : Pos) (splice : Option Nat) (missed : Bool) : Node :=
  if (curEmboss n).isNone then n
  else
    let d : Int := (cfg n).eyeToNip
    let m : Int := (cfg n).spliceMargin
    let n1 := if missed then takeSplice n none (movePos edge (d + m)) else n
    match splice with
    | none => n1
    | some s => takeSplice n1 (some (movePos edge (s + d - m))) (movePos edge (s + d + m))

/-! ### Coverage (R114, R115) -/

/-- R114: a coverage span is appended; with 8 held the oldest leaves without a decision. -/
def appendSpan (n : Node) (number : Nat) (edge : Pos) : Node :=
  let sp := passSpan n.travel.position n.nip.state { number := number, start := movePos edge (cfg n).eyeToNip }
  let l := n.nip.spans ++ [sp]
  { n with nip := { n.nip with spans := l.drop (l.length - 8) } }

/-- R115: the coverage of a span whose passage has ended. -/
def decideCoverage (sp : CoverageSpan) : Coverage :=
  if sp.sawClosed ∧ !sp.sawOther then .full
  else if sp.sawOther ∧ !sp.sawClosed ∧ !sp.sawMoving then .none
  else .partly

/-- COVERAGE_PASSAGE_END: the local position passes the start of the next span (R114 to R116). -/
def coveragePassageEnd (n : Node) : Node :=
  match n.nip.spans with
  | sp :: next :: rest =>
    if passed n.travel.position next.start then
      let reports := n.nip.reports ++ [(sp.number, decideCoverage sp)]
      { n with nip := { n.nip with spans := next :: rest, reports := reports.drop (reports.length - 4) } }
    else n
  | _ => n

/-! ### Firings, STANDSTILL, switches and leaving JOINED -/

/-- R107, R113: a NIP entry of this tag fires. -/
def nipFired (n : Node) (tag : Nat) : Node :=
  match tag with
  | 1 => closeNip { n with nip := { n.nip with regular := false } }
  | 2 => openDone (openNip n)
  | _ => endPassage n

/-- R109: a switch of the current job at the EMBOSS node. -/
def nipSwitch (n : Node) : Node :=
  let n1 := cancelRegular n
  if (curEmboss n1).isNone then openNip n1 else n1

/-- The Nip Controller at a match report: the switch, a waiting re-close, splices, the regular close, the span. -/
def nipReport (n : Node) (number : Nat) (edge : Pos) (real switched : Bool) (splice : Option Nat) (missed : Bool) : Node :=
  if !isRole n .emboss then n
  else
    let n1 := if switched then nipSwitch n else n
    let n2 := nipSplices (retryReclose n1) edge splice missed
    let n3 := if real then testRegular n2 edge else n2
    appendSpan n3 number edge

/-- STANDSTILL_TIMER: the standstill timer expires (R5); the nip opens and an armed regular close is cancelled (R108). -/
def standstillTimer (n : Node) : Node :=
  if n.travel.standstill = some 0 then
    let n1 : Node := { n with travel := { n.travel with standstill := none, motion := .standstill } }
    if n.travel.motion = .moving ∧ isRole n .emboss then cancelRegular (openNip n1) else n1
  else n

/-- R106: leaving JOINED. -/
def nipLeave (n : Node) : Node := if isRole n .emboss then cancelRegular (openNip n) else n

end Sys2Proof.Machine
end

