-- ==== Sys2Proof/Machine/Shade.lean ====
section
/-! DEFINITION. The Shade Integrator (R118 to R126) and the owner part of the Batch Unit (R127 to R134). -/

namespace Sys2Proof.Machine

/-! ### Triples -/

def zipTriple (f : Int → Int → Int) (a b : Triple) : Triple :=
  { lightness := f a.lightness b.lightness, redGreen := f a.redGreen b.redGreen, yellowBlue := f a.yellowBlue b.yellowBlue }

def addTriple (a b : Triple) : Triple := zipTriple (· + ·) a b

/-- Each coordinate over `k`, rounded to the nearest hundredth, an exact half away from zero. -/
def divTriple (a : Triple) (k : Nat) : Triple :=
  { lightness := roundHalfAway a.lightness k, redGreen := roundHalfAway a.redGreen k,
    yellowBlue := roundHalfAway a.yellowBlue k }

/-- On some coordinate the magnitude of the difference exceeds the tolerance. -/
def differs (tol a b : Triple) : Bool :=
  decide (tol.lightness < (a.lightness - b.lightness).natAbs) || decide (tol.redGreen < (a.redGreen - b.redGreen).natAbs) ||
    decide (tol.yellowBlue < (a.yellowBlue - b.yellowBlue).natAbs)

def zeroTriple : Triple := { lightness := 0, redGreen := 0, yellowBlue := 0 }

/-! ### Integration (R118, R120) -/

/-- R118: a code enters a channel; 4,095 is a full-scale sample. -/
def addCode (ch : Channel) (code : Nat) : Channel :=
  { sum := ch.sum + code, count := ch.count + 1, saturated := ch.saturated || decide (4095 ≤ code) }

def codeList (c : ShadeCodes) : List Nat := [c.l0, c.l1, c.l2, c.r0, c.r1, c.r2]

/-- R122: the local position lies in the tile half of the run. -/
def inTileHalf (r : CalRun) (p : Pos) : Bool :=
  decide ((2 * r.length : Nat) ≤ posDiff p r.start) && decide (posDiff p r.start < (4 * r.length : Nat))

/-- R118: the multiple of 10 ticks before one, across the wrap of the position. -/
def sampleBefore (p : Pos) : Pos := if p = 0 then 4294967290 else p - 10

/-- R118: the position of the advance that made the oldest sample due. -/
def samplePosition (n : Node) : Pos :=
  (List.range (n.shade.samplesDue - 1)).foldl (fun p _ => sampleBefore p)
    (BitVec.ofNat 32 (n.travel.position.toNat / 10 * 10))

/-- SHADE_SAMPLE: one conversion of the six inputs, due at an advance to a multiple of 10 ticks (R118). -/
def shadeSample (codes : ShadeCodes) (n : Node) : Node :=
  if isRole n .shade ∧ isJoined n ∧ 0 < n.shade.samplesDue then
    { n with shade := { n.shade with
        samplesDue := n.shade.samplesDue - 1,
        channels := if n.shade.window.isSome then n.shade.channels.zipWith addCode (codeList codes) else n.shade.channels,
        run := n.shade.run.map fun r =>
          if inTileHalf r (samplePosition n) then { r with tiles := r.tiles.zipWith addCode (codeList codes) } else r } }
  else n

/-- R120: the value of a channel with a count above 0. -/
def channelValue (gain : Nat) (offset : Int) (ch : Channel) : Int :=
  clampInt (-32768) 32767 (roundHalfAway ((ch.sum * gain : Nat) - offset * 1000 * ch.count) (1000 * ch.count))

def channelAt (n : Node) (i : Nat) : Channel := n.shade.channels.getD i {}

def valueAt (n : Node) (i : Nat) : Int :=
  channelValue ((cfg n).gains.getD i 0) (n.shade.offsets.getD i 0) (channelAt n i)

/-- R120: the triple of the head whose channels start at index `i`. -/
def headTriple (n : Node) (i : Nat) : Option Triple :=
  let chs := [channelAt n i, channelAt n (i + 1), channelAt n (i + 2)]
  if n.shade.head = .measuring ∧ chs.all (fun ch => decide (0 < ch.count)) ∧ chs.all (fun ch => !ch.saturated) then
    some { lightness := valueAt n i, redGreen := valueAt n (i + 1), yellowBlue := valueAt n (i + 2) }
  else none

/-- R120: the mean triple of a repeat. -/
def meanTriple (l r : Option Triple) : Option Triple :=
  match l, r with
  | some a, some b => some (divTriple (addTriple a b) 2)
  | _, _ => none

/-- R124: the grade of a window. -/
def gradeWindow (n : Node) (w : ShadeWindow) : ShadeGrade :=
  match curPattern n with
  | none => .absent
  | some p =>
    if w.inSpan ∨ n.shade.head ≠ .measuring ∨ n.shade.channels.any (fun ch => decide (ch.count = 0)) then .absent
    else if n.shade.channels.any (·.saturated) then .saturated
    else
      match headTriple n 0, headTriple n 3 with
      | some a, some b =>
        if differs { lightness := p.edgeTolerance, redGreen := p.edgeTolerance, yellowBlue := p.edgeTolerance } a b then .edge
        else .ok
      | _, _ => .ok

/-! ### Openings (R128, R129) -/

/-- R128: BATCH OPENED is offered. -/
def offerOpened (n : Node) (p : BatchPayload) : Node := offerAgain n (.batchOpened p) false .opened (.opened p)

/-- R130: BATCH FIXED is offered; the offer carries the newest opening, so that its re-offer can tell a later one. -/
def offerFixed (n : Node) (p : BatchPayload) (t : Triple) : Node :=
  offerAgain n (.batchFixed p t) false (.fixed n.batch.lastOpened) (.fixed p t n.batch.lastOpened)

/-- R128: an opening is made: the next code is taken and BATCH OPENED is offered, unless the first repeat is not newer than
the last decided one. The drift run that the repeats released before it left ends here, the model's choice (log entry 24). -/
def openBatch (n : Node) (first : Nat) (reason : BatchReason) : Node :=
  match n.batch.nextCode with
  | none => n
  | some code =>
    if (match n.batch.lastDecided with
        | some l => !newer repeatRange first l
        | none => false) then n
    else
      offerOpened
        { n with batch := { n.batch with nextCode := some (succIn batchRange code), lastDecided := some first, driftRun := 0,
                                         driftFirst := none, watch := none, inOffer := n.batch.inOffer + 1,
                                         lastOpened := some code } }
        { code := code, first := first, reason := reason }

/-! ### Forming and drift (R130, R131) -/

/-- R130: the own batch becomes FIXED with this reference; the tolerances are those of the current pattern. Without one
they are unstated (log entry 4). -/
def fixOwn (n : Node) (b : OwnBatch) : Node :=
  let ref := divTriple b.sums 16
  let tol := match curPattern n with
    | some p => p.tolerance
    | none => { lightness := freeInt n, redGreen := Config.freeInt (n.freeIndex + 1), yellowBlue := Config.freeInt (n.freeIndex + 2) }
  let n1 := if (curPattern n).isNone then useFree n 3 else n
  offerFixed
    { n1 with batch := { n1.batch with own := some { b with phase := .fixed, reference := ref, tolerance := tol } } }
    { code := b.code, first := b.first, reason := b.reason } ref

/-- R130: a mean triple enters the forming sums; the sixteenth fixes the batch. -/
def formMean (n : Node) (mean : Triple) : Node :=
  match n.batch.own with
  | none => n
  | some b =>
    if b.phase = .forming then
      let b1 : OwnBatch := { b with sums := addTriple b.sums mean, count := b.count + 1 }
      if b1.count < 16 then { n with batch := { n.batch with own := some b1 } } else fixOwn n b1
    else n

/-- R131: the drift run after a tested repeat; `driftReached` counts the runs that reach K. -/
def driftStep (k : Nat) (u : BatchUnit) (b : OwnBatch) (number : Nat) (mean : Triple) : BatchUnit :=
  if differs b.tolerance mean b.reference then
    { u with driftRun := u.driftRun + 1, driftFirst := if u.driftRun = 0 then some number else u.driftFirst,
             driftReached := if u.driftRun + 1 = k then u.driftReached + 1 else u.driftReached }
  else { u with driftRun := 0, driftFirst := none }

/-- R127, steps 2 and 3: an OK repeat is formed or tested; the drift run that reaches K is answered with its first repeat. -/
def formOrTest (n : Node) (g : Graded) : Node × Option Nat :=
  match g.mean, n.batch.own with
  | some mean, some b =>
    if n.batch.inOffer ≠ 0 then (n, none)
    else if b.phase = .forming then (formMean n mean, none)
    else
      let n1 : Node := { n with batch := driftStep (cfg n).driftK n.batch b g.number mean }
      if (cfg n).driftK ≤ n1.batch.driftRun then (n1, n1.batch.driftFirst) else (n1, none)
  | _, _ => (n, none)

/-- R134: held repeats pass to steps 2 and 3, oldest first, up to the one that decides a DRIFT opening. -/
def passHeld : List Graded → Node → Node × Option Nat
  | [], n => (n, none)
  | g :: gs, n =>
    match formOrTest n g with
    | (n1, some f) => (n1, some f)
    | (n1, none) => passHeld gs n1

/-- The watch ends and its held repeats pass on. -/
def releaseWatch (n : Node) : Node × Option Nat :=
  match n.batch.watch with
  | none => (n, none)
  | some w => passHeld w.held { n with batch := { n.batch with watch := none } }

/-- R131, R128: the DRIFT opening that a tested repeat decided, if any. -/
def decideDrift (r : Node × Option Nat) : Node :=
  match r.2 with
  | none => r.1
  | some f => openBatch r.1 f .drift

/-- R128: an opening that another reason decides. Outside JOINED none is decided; while the resume window is open it is
held; before the first opening it is passed over (R129). An opening that is made ends an active watch, and one that a
released repeat decides follows it. -/
def decideOpening (n : Node) (first : Nat) (reason : BatchReason) : Node :=
  if !isJoined n then n
  else if n.link.resume.isSome then
    { n with batch := { n.batch with heldOpenings := n.batch.heldOpenings ++ [(first, reason)] } }
  else
    match n.batch.lastDecided with
    | none => n
    | some l =>
      if !newer repeatRange first l then n
      else
        let r := releaseWatch { n with batch := { n.batch with driftRun := 0, driftFirst := none } }
        decideDrift (openBatch r.1 first reason, r.2)

/-- R129: the first opening. -/
def firstOpening (n : Node) (g : Graded) : Node :=
  match n.batch.kind with
  | none => n
  | some k =>
    if g.grade = .ok ∧ isJoined n then openBatch { n with batch := { n.batch with kind := none } } g.number k else n

/-! ### The step watch (R134) -/

/-- The coordinate mean of the mean triples of four repeats. -/
def meanOfFour (l : List Graded) : Triple :=
  divTriple ((l.filterMap (·.mean)).foldl addTriple zeroTriple) 4

def okRepeats (l : List Graded) : List Graded := l.filter fun g => decide (g.grade = .ok)

/-- R134: the tolerances of the step test; without a current pattern they are unstated (log entry 4). -/
def stepTolerance (n : Node) : Triple :=
  match curPattern n with
  | some p => p.tolerance
  | none => { lightness := freeInt n, redGreen := Config.freeInt (n.freeIndex + 1), yellowBlue := Config.freeInt (n.freeIndex + 2) }

/-- R134: the watch holds four repeats and decides. -/
def decideWatch (n : Node) (w : StepWatch) : Node :=
  let n0 := if (curPattern n).isNone then useFree n 3 else n
  if differs (stepTolerance n) (meanOfFour w.held) w.before then
    match n.shade.firstAfter with
    | some f => openBatch { n0 with batch := { n0.batch with watch := none } } f .calibrationStep
    | none => { n0 with batch := { n0.batch with watch := none } }
  else decideDrift (releaseWatch { n0 with batch := { n0.batch with watch := some w } })

/-- R127, step 1: an OK repeat is held by the watch. -/
def holdByWatch (n : Node) (w : StepWatch) (g : Graded) : Node :=
  let w1 : StepWatch := { w with held := w.held ++ [g] }
  if w1.held.length < 4 then { n with batch := { n.batch with watch := some w1 } } else decideWatch n w1

/-- R134: a watch starts with a calibration run. -/
def startWatch (n : Node) : Node :=
  let ok := okRepeats n.batch.history
  if n.batch.lastDecided.isSome ∧ 4 ≤ ok.length then
    { n with batch := { n.batch with watch := some { before := meanOfFour (ok.drop (ok.length - 4)), held := [] } } }
  else n

/-- R127: the Batch Unit takes a graded repeat. -/
def takeGraded (n : Node) (g : Graded) : Node :=
  let h := n.batch.history ++ [g]
  let n1 : Node := { n with batch := { n.batch with history := h.drop (h.length - 32) } }
  let n2 :=
    if g.grade = .ok then
      match n1.batch.watch with
      | some w => holdByWatch n1 w g
      | none => decideDrift (formOrTest n1 g)
    else n1
  firstOpening n2 g

/-! ### Windows and calibration at a match report (R119, R121, R122) -/

/-- R126: the factors at the close of a graded window. -/
def shadeFactors (n : Node) (g : ShadeGrade) : Node :=
  { n with shade := { n.shade with
      edge := decide (g = .edge),
      satPart := match g with
        | .saturated => true
        | .absent => n.shade.satPart
        | _ => false } }

/-- R119, R124 to R127: the window in progress closes: grade, SHADE offer, factors, Batch Unit. -/
def closeShadeWindow (n : Node) : Node :=
  match n.shade.window with
  | none => n
  | some w =>
    let g := gradeWindow n w
    let l := headTriple n 0
    let r := headTriple n 3
    let n1 : Node := { n with shade := { n.shade with
        window := none, due := if n.shade.head = .measuring then n.shade.due + 1 else n.shade.due } }
    let n2 := offerPlain n1 (.shade { number := w.number, grade := g, left := l, right := r })
    takeGraded (shadeFactors n2 g)
      { number := w.number, grade := g, mean := if g = .ok ∨ g = .edge then meanTriple l r else none }

/-- R121: a calibration is due. -/
def calibrationDue (n : Node) : Bool :=
  decide (n.shade.head = .uncalibrated) || decide ((cfg n).calibrationInterval ≤ n.shade.due) || n.shade.fault

/-- R122: the length L of a run. -/
def calibrationLength (n : Node) : Nat :=
  match settleLength n with
  | some len => len
  | none => 5300

/-- R122, R134: a calibration run starts; an active watch is released and a new one may start. A DRIFT
opening that the released repeats decide comes first, so the new watch stands: the model's choice (log entry 53). -/
def startCalibration (n : Node) : Node :=
  if calibrationDue n ∧ n.shade.run.isNone then
    let n1 : Node := { n with shade := { n.shade with
        head := .calibrating, awaitFirst := false,
        run := some { start := n.travel.position, length := calibrationLength n, tiles := [{}, {}, {}, {}, {}, {}] } } }
    startWatch (decideDrift (releaseWatch n1))
  else n

/-- R119: a window opens; the first after the end of a span is the first after the calibration (R122). -/
def openShadeWindow (n : Node) (number : Nat) : Node :=
  { n with shade := { n.shade with
      window := some { number := number, inSpan := n.shade.run.isSome },
      channels := [{}, {}, {}, {}, {}, {}],
      firstAfter := if n.shade.awaitFirst ∧ n.shade.run.isNone then some number else n.shade.firstAfter,
      awaitFirst := n.shade.awaitFirst && n.shade.run.isSome } }

/-- R133, R134: a switch of the current job ends a watch and decides a JOB opening. -/
def batchSwitch (n : Node) (first : Nat) : Node :=
  let n1 := decideOpening n first .job
  decideDrift (releaseWatch n1)

/-- The Shade Integrator at a match report; it works while the node is JOINED. A switch comes before a calibration run that
starts at the same report, so the watch of that run stands: the model's choice (log entry 53). -/
def shadeReport (n : Node) (number : Nat) (switched : Option Nat) : Node :=
  if isRole n .shade ∧ isJoined n then
    let n1 := closeShadeWindow n
    let n2 := match switched with
      | some f => batchSwitch n1 f
      | none => n1
    openShadeWindow (startCalibration n2) number
  else n

/-- R122: a channel's offset from its tile mean; without samples it is unstated (log entry 4). -/
def tileOffset (n : Node) (i : Nat) (ch : Channel) : Int :=
  if ch.count = 0 then Config.freeInt (n.freeIndex + i)
  else roundHalfAway (ch.sum * (cfg n).gains.getD i 0 : Nat) (1000 * ch.count) - (cfg n).tiles.getD i 0

/-- R122, R123: the run ends. -/
def endCalibration (n : Node) (r : CalRun) : Node :=
  if r.tiles.any (·.saturated) then
    { n with shade := { n.shade with
        run := none, awaitFirst := true, due := 0, fault := true,
        head := if n.shade.offsetsGood then .measuring else .uncalibrated } }
  else
    { useFree n 6 with shade := { n.shade with
        run := none, awaitFirst := true, due := 0, fault := false, head := .measuring, offsetsGood := true,
        offsets := r.tiles.mapIdx (tileOffset n) } }

/-- CALIBRATION_END: the local position passes the end of the shutter span (R122, R123). -/
def calibrationEnd (n : Node) : Node :=
  match n.shade.run with
  | none => n
  | some r =>
    if ((4 * r.length : Nat) : Int) ≤ posDiff n.travel.position r.start then holdSettle (endCalibration n r) else n

/-! ### Resume window, restates and leaving JOINED -/

/-- R38, R129: the resume window of the SHADE node closes. -/
def batchStart (n : Node) : Node :=
  if isRole n .shade ∧ isJoined n then
    let held := n.batch.heldOpenings
    let n1 : Node := { n with batch := { n.batch with
        nextCode := some (numberAfter batchRange n.link.newestBatch), heldOpenings := [],
        kind := some (if n.resetCause = .rejoin ∨ n.link.newestBatch.isSome then .restart else .start) } }
    held.foldl (fun m o => decideOpening m o.1 o.2) n1
  else n

/-- R138: the Shade Integrator and the owner part of the Batch Unit return to their reset values; the list is kept, and the
model's own count of the drift runs that reached K. -/
def resetShadeUnit (n : Node) : Node :=
  { n with shade := {}, batch := { list := n.batch.list, driftReached := n.batch.driftReached } }

/-- REQUEST CLOSE_BATCH at the SHADE node (R132). -/
def closeBatchRequest (n : Node) : Node :=
  if isRole n .shade ∧ isJoined n then
    match n.track.here, n.batch.lastDecided with
    | some h, some _ => decideOpening n (succIn repeatRange h) .operator
    | _, _ => countRefusal n
  else n

end Sys2Proof.Machine
end

