-- ==== Sys2Proof/Machine/Roll.lean ====
section
/-! DEFINITION. The Roll Builder (R155 to R169): the cut plan, arming and firing, pieces and their grades, late batches. -/

namespace Sys2Proof.Machine

def repeatNewer (a b : Nat) : Bool := newer repeatRange a b
def repeatAtOrAfter (a b : Nat) : Bool := atOrAfter repeatRange a b

/-! ### The cut plan (R155, R156) -/

def joinReasons (a b : CutReasons) : CutReasons :=
  { full := a.full || b.full, splice := a.splice || b.splice, batch := a.batch || b.batch, job := a.job || b.job,
    operator := a.operator || b.operator, start := a.start || b.start }

def noReasons (r : CutReasons) : Bool := !r.full && !r.splice && !r.batch && !r.job && !r.operator && !r.start

/-- The newest entry at or before a repeat. -/
def entryAtOrBefore (plan : List PlanEntry) (x : Nat) : Option PlanEntry :=
  (plan.filter fun e => repeatAtOrAfter x e.cut).getLast?

/-- R155: the kind of the web at a repeat. -/
def kindAt (u : RollUnit) (x : Nat) : PieceKind :=
  match entryAtOrBefore u.plan x with
  | some e => e.kind
  | none =>
    match u.piece with
    | some p => p.kind
    | none => .roll

def entryAt (plan : List PlanEntry) (x : Nat) : Option PlanEntry := plan.find? fun e => decide (e.cut = x)

/-- The nearest entry after a repeat. -/
def entryAfter (plan : List PlanEntry) (x : Nat) : Option PlanEntry := plan.find? fun e => repeatNewer e.cut x

/-- R155: strictly inside a waste run. -/
def insideWaste (u : RollUnit) (x : Nat) : Bool := decide (kindAt u x = .waste) && (entryAt u.plan x).isNone

def updateEntry (plan : List PlanEntry) (x : Nat) (f : PlanEntry → PlanEntry) : List PlanEntry :=
  plan.map fun e => if e.cut = x then f e else e

def addReasons (plan : List PlanEntry) (x : Nat) (r : CutReasons) : List PlanEntry :=
  updateEntry plan x fun e => { e with reasons := joinReasons e.reasons r }

/-- An entry is inserted in its place in the order. -/
def insertEntry (e : PlanEntry) : List PlanEntry → List PlanEntry
  | [] => [e]
  | x :: xs => if repeatNewer x.cut e.cut then e :: x :: xs else x :: insertEntry e xs

/-- R156: the cases of a single entry outside a waste run. -/
def placeOutside (u : RollUnit) (c : Nat) (r : CutReasons) : RollUnit :=
  if (entryAt u.plan c).isSome then { u with plan := addReasons u.plan c r }
  else if u.plan.length < 8 then { u with plan := insertEntry { cut := c, reasons := r, kind := .roll } u.plan }
  else
    match entryAfter u.plan c with
    | some e => { u with plan := addReasons u.plan e.cut r }
    | none => { u with planRefusals := u.planRefusals + 1 }

/-- R156: a single entry is placed at `c`. -/
def placeCut (u : RollUnit) (c : Nat) (r : CutReasons) : RollUnit :=
  if insideWaste u c then
    if r.full then u
    else
      match entryAfter u.plan c with
      | some e => { u with plan := addReasons u.plan e.cut r }
      | none => placeOutside u c r
  else placeOutside u c r

/-! ### Splices (R157) -/

/-- A waste run: its start, and its end when it has one. -/
def runsOfPlan : List PlanEntry → List (Nat × Option Nat)
  | [] => []
  | e :: es =>
    if e.kind = .waste then (e.cut, es.head?.map (·.cut)) :: runsOfPlan es else runsOfPlan es

def wasteRuns (u : RollUnit) : List (Nat × Option Nat) :=
  (match u.piece with
   | some p => if p.kind = .waste then [(p.first, (entryAfter u.plan p.first).map (·.cut))] else []
   | none => []) ++ runsOfPlan u.plan

/-- Two runs overlap or touch at an end. -/
def runsTouch (a b : Nat) (w : Nat × Option Nat) : Bool :=
  repeatAtOrAfter b w.1 &&
    (match w.2 with
     | some e => repeatAtOrAfter e a
     | none => true)

/-- The union of the run with one that it meets. -/
def uniteRun (ab : Nat × Nat) (w : Nat × Option Nat) : Nat × Nat :=
  if runsTouch ab.1 ab.2 w then
    (if repeatNewer ab.1 w.1 then w.1 else ab.1,
     match w.2 with
     | some e => if repeatNewer e ab.2 then e else ab.2
     | none => ab.2)
  else ab

/-- R157: the union with every run it meets, closed (log entry 25). -/
def uniteRuns (runs : List (Nat × Option Nat)) : Nat → Nat × Nat → Nat × Nat
  | 0, ab => ab
  | k + 1, ab => uniteRuns runs k (runs.foldl uniteRun ab)

/-- R157, steps 1 to 3. -/
def agreePlan (u : RollUnit) (a b : Nat) : RollUnit :=
  let between := u.plan.filter fun e => repeatNewer e.cut a && repeatNewer b e.cut
  let carried := between.foldl (fun r e => joinReasons r { e.reasons with full := false }) { splice := true }
  let p1 := u.plan.filter fun e => !(repeatNewer e.cut a && repeatNewer b e.cut)
  let startsHere : Bool := match u.piece with
    | some p => decide (p.kind = .waste) && decide (p.first = a)
    | none => false
  let p2 :=
    if startsHere then p1
    else
      match entryAt p1 a with
      | some e =>
        if e.kind = PieceKind.waste then p1
        else updateEntry p1 a fun e => { e with kind := .waste, reasons := joinReasons e.reasons { splice := true } }
      | none => insertEntry ({ cut := a, reasons := { splice := true }, kind := .waste } : PlanEntry) p1
  let p3 :=
    if (entryAt p2 b).isSome then
      updateEntry p2 b fun e => { e with kind := .roll, reasons := joinReasons e.reasons carried }
    else insertEntry { cut := b, reasons := carried, kind := .roll } p2
  if p3.length ≤ 8 then { u with plan := p3 } else { u with planRefusals := u.planRefusals + 1 }

/-- R157: the waste run of the splice in repeat `x`. -/
def planSplice (n : Node) (x : Nat) : Node :=
  if isRole n .rewind ∧ isJoined n then
    let a0 := subIn repeatRange x (cfg n).wasteBefore
    let b := addIn repeatRange x (1 + (cfg n).wasteAfter)
    let a := match n.track.here with
      | some h => if repeatNewer a0 h then a0 else succIn repeatRange h
      | none => a0
    let ab := uniteRuns (wasteRuns n.roll) 10 (a, b)
    { n with roll := agreePlan n.roll ab.1 ab.2 }
  else n

/-! ### Grading (R166, R167) -/

def rollCause (i : Nat) (b : Bool) : RollCauses := if b then BitVec.ofNat 16 (2 ^ i) else 0

/-- The present records of a run. -/
def runRecords (n : Node) (first count : Nat) : List RepeatRecord :=
  n.track.table.filter fun r => inRun repeatRange first count r.number

/-- R167, REGISTER: a record fails a required slot. -/
def slotFails (tol c : Nat) (r : RepeatRecord) : Bool :=
  match r.results.getD (c - 1) none with
  | none => true
  | some res =>
    match res.error with
    | none => true
    | some e => decide (tol < e.natAbs)

/-- R167: the required slots of a pattern. -/
def requiredSlots (n : Node) (p : Pattern) : List Nat :=
  ((List.range p.colourCount).filter fun c => decide (1 ≤ c) && learntSlot n c) ++
    (if p.embossOffset.isSome ∧ learntRole n .emboss then [8] else [])

/-- R167: the span of a hold list entry reaches the run from `first` to `last`. -/
def spanReaches (first last : Nat) (h : HoldEntry) : Bool :=
  repeatAtOrAfter last h.first &&
    (match h.last with
     | none => true
     | some l => repeatAtOrAfter l h.first && repeatAtOrAfter l first)

/-- R167, HELD: the union of the cause sets that reach the run. -/
def heldCauses (n : Node) (recs : List RepeatRecord) (first last : Nat) : CauseSet :=
  let held := recs.foldl (fun s r => s ||| r.heldBy) (0 : StationSet)
  (n.hold.list.filter fun h => held.getLsbD (h.station - 1) && spanReaches first last h).foldl (fun c h => c ||| h.causes) 0

/-- More than one value among the present records. -/
def mixed (f : RepeatRecord → Nat) : List RepeatRecord → Bool
  | [] => false
  | r :: rs => rs.any fun x => decide (f x ≠ f r)

/-- R167: the causes for which a ROLL piece grades HOLD. -/
def holdTests (n : Node) (p : OpenPiece) (count : Nat) (recs : List RepeatRecord) : RollCauses :=
  let pat := p.pattern.bind (findPattern (cfg n))
  let shade := learntRole n .shade
  rollCause 2 (recs.any fun r => decide (r.heldBy ≠ 0)) |||
    rollCause 3 (match pat with
      | some q => (requiredSlots n q).any fun c => recs.any (slotFails (cfg n).registerTolerance c)
      | none => false) |||
    rollCause 4 (match pat with
      | some q => q.embossOffset.isSome && recs.any (fun r => decide (r.nip ≠ some .full))
      | none => false) |||
    rollCause 5 (shade && mixed (·.batch) recs) |||
    rollCause 6 (shade && recs.any (fun r => decide (r.batch = 0))) |||
    rollCause 7 (decide (recs.length < count)) |||
    rollCause 8 (p.cutMoved || decide (p.full < count) || mixed (·.job) recs) |||
    rollCause 9 p.batchLate

/-- The carried causes of a piece. -/
def carriedCauses (p : OpenPiece) : RollCauses :=
  rollCause 0 p.start ||| rollCause 8 p.cutMoved ||| rollCause 9 p.batchLate

/-- R166: grade, roll cause set and hold cause set of a closing piece. -/
def gradePiece (n : Node) (p : OpenPiece) (count : Nat) (recs : List RepeatRecord) : Grade × RollCauses × CauseSet :=
  if p.kind = .waste then (.waste, carriedCauses p, 0)
  else if count < (cfg n).shortMin then (.waste, rollCause 1 true ||| carriedCauses p, 0)
  else
    let causes := holdTests n p count recs
    if causes ≠ 0 then
      (.hold, causes, if recs.any (fun r => decide (r.heldBy ≠ 0)) then
          heldCauses n recs p.first (lastIn repeatRange p.first count) else 0)
    else if count < p.full then (.short, 0, 0)
    else (.first, 0, 0)

/-- The content of a piece that closes before repeat `cut` at position `pos` (R165, R166). A firing before the opening position
of a START piece gives the difference modulo 2^32, the model's choice (log entry 54). -/
def closePiece (n : Node) (p : OpenPiece) (cut : Nat) (pos : Pos) : RollContent :=
  let count := fwd repeatRange p.first cut
  let recs := runRecords n p.first count
  let g := gradePiece n p count recs
  let first := findRecord n p.first
  { number := p.number, kind := p.kind, first := p.first, count := count,
    batch := match first with | some r => r.batch | none => 0,
    job := match first with | some r => r.job | none => p.job,
    grade := g.1, causes := g.2.1, holdCauses := g.2.2, length := (pos - p.opening).toNat }

/-! ### ROLL offers (R169, R161) -/

/-- R169: the ROLL of a piece awaiting completion is offered with the content it has now. -/
def offerRoll (n : Node) (number : Nat) : Node :=
  match n.roll.awaiting.find? fun c => decide (c.number = number) with
  | none => n
  | some c => offerAgain n (.roll c) false .roll (.roll number)

/-- R161: what a regrade does to a piece. -/
def changeRoll (c : RollContent) (ch : RollChange) : RollContent :=
  { c with grade := if ch.late then .hold else c.grade, causes := c.causes ||| rollCause 9 ch.late,
           batch := ch.batch.getD c.batch }

/-- R161: two changes of one roll as one; of two batch codes the newer stands. -/
def joinChange (a b : RollChange) : RollChange :=
  { late := a.late || b.late,
    batch := match a.batch, b.batch with
      | some x, some y => some (if newer batchRange x y then x else y)
      | some x, none => some x
      | none, y => y }

/-- The changes of a roll that still wait in the queue or for a re-offer, and one more (log entry 27). -/
def pendingChange (n : Node) (number : Nat) (ch : RollChange) : RollChange :=
  let ofQueue := n.link.queue.filterMap fun e =>
    match e.offerBy, e.telegram with
    | .regrade c, .roll p => if p.number = number then some c else none
    | _, _ => none
  let ofRefused := n.link.refusedOffers.filterMap fun r =>
    match r with
    | .regrade x c => if x = number then some c else none
    | _ => none
  (ofQueue ++ ofRefused).foldl joinChange ch

/-- R161: a regrade is offered as a restated ROLL, its content taken from the list entry and every change that waits, so that
of two regrades neither undoes the other, also after a loss (log entry 27). -/
def offerRegrade (n : Node) (number : Nat) (ch : RollChange) : Node :=
  match n.roll.list.find? fun c => decide (c.number = number) with
  | none => n
  | some c =>
    let all := pendingChange n number ch
    offerAgain n (.roll (changeRoll c all)) true (.regrade all) (.regrade number all)

/-! ### Arming and firing (R159, R164, R165) -/

/-- R159: N, the smallest count of repeats at least the minimum roll length. -/
def fullCount (p : Pattern) : Nat := ceilDiv p.minRoll p.nominal

/-- R159: FULL leaves every entry after `cut`; an entry with no reason left is removed. -/
def dropFull (plan : List PlanEntry) (cut : Nat) : List PlanEntry :=
  (plan.map fun e => if repeatNewer e.cut cut then { e with reasons := { e.reasons with full := false } } else e).filter
    fun e => !(repeatNewer e.cut cut && noReasons e.reasons)

/-- R159: FULL is planned at the arming of the entry at `cut`, whose recorded pattern is `pat`. -/
def planFull (c : Config) (u : RollUnit) (cut : Nat) (kind : PieceKind) (pat : Option Nat) : RollUnit :=
  let u1 : RollUnit := { u with plan := dropFull u.plan cut }
  match kind, pat.bind (findPattern c) with
  | .roll, some p =>
    let k := fullCount p
    placeCut { u1 with plan := updateEntry u1.plan cut fun e => { e with full := k } } (addIn repeatRange cut k) { full := true }
  | _, _ => { u1 with plan := updateEntry u1.plan cut fun e => { e with full := 0 } }

/-- R165: the piece that an entry opens. -/
def pieceOf (e : PlanEntry) (number : Nat) (pos : Pos) : OpenPiece :=
  { number := number, kind := e.kind, first := e.cut, opening := pos,
    job := match e.arming with | some a => a.job | none => 0,
    pattern := e.arming.bind (·.pattern),
    full := e.full, cutMoved := e.moved, batchLate := e.late }

/-- R169: the pieces awaiting completion, the newest last; a ninth abandons the oldest. -/
def awaitPiece (u : RollUnit) (c : RollContent) : List RollContent :=
  (u.awaiting ++ [c]).drop (u.awaiting.length + 1 - 8)

/-- R169: the entry offers the ROLL of a piece that is not among `kept`: it was abandoned. -/
def abandonedRoll (kept : List RollContent) (e : QEntry) : Bool :=
  match e.offerBy, e.telegram with
  | .roll, .roll c => !kept.any fun k => decide (k.number = c.number)
  | _, _ => false

/-- R169: the queued ROLL of an abandoned piece is withdrawn; a frame already on the line goes on, and leaves at the next idle
gap unless it completed (log entry 55). -/
def withdrawRolls (l : Link) (kept : List RollContent) : Link :=
  let stays := fun (e : QEntry) => !abandonedRoll kept e
  match l.queue with
  | [] => l
  | h :: rest =>
    if l.sending || stays h then { l with queue := h :: rest.filter stays }
    else { l with queue := rest.filter stays, attempts := 0 }

/-- R165: an entry fires at position `pos`. -/
def fireCut (n : Node) (e : PlanEntry) (pos : Pos) : Node :=
  let plan := n.roll.plan.filter fun x => decide (x.cut ≠ e.cut)
  match n.roll.piece, n.roll.nextRoll with
  | some p, some next =>
    let c := closePiece n { p with cutMoved := p.cutMoved || e.moved } e.cut pos
    let awaiting := awaitPiece n.roll c
    offerRoll
      { n with link := withdrawRolls n.link awaiting, roll := { n.roll with
          plan := plan, piece := some (pieceOf e next pos), nextRoll := some (succIn rollRange next),
          awaiting := awaiting } } c.number
  | _, _ => { n with roll := { n.roll with plan := plan } }

/-- R165: a CUT entry of this tag is reported FIRED. -/
def cutFired (n : Node) (tag : Nat) (pos : Pos) : Node :=
  match n.roll.plan.find? fun e => decide (e.arming.map (·.tag) = some tag) with
  | none => n
  | some e => fireCut n e pos

/-- R164: the lowest tag from 1 to 8 that no ARMED entry holds. -/
def freeTag (plan : List PlanEntry) : Nat :=
  (([1, 2, 3, 4, 5, 6, 7, 8].find? fun t => !plan.any fun e => decide (e.arming.map (·.tag) = some t))).getD 8

/-- R164: several due entries, or overdue ones, become one at here. -/
def mergeDue (u : RollUnit) (due : List PlanEntry) (here : Nat) : RollUnit :=
  let e : PlanEntry :=
    { cut := here, reasons := due.foldl (fun r x => joinReasons r x.reasons) {},
      kind := match due.getLast? with | some x => x.kind | none => .roll,
      moved := true, late := due.any (·.late) }
  let rest := u.plan.filter fun x => x.arming.isSome || repeatNewer x.cut here
  { u with plan := insertEntry e rest, cutsMoved := u.cutsMoved + 1 }

/-- R164: the due entries of a real match report become the one entry to arm, at here. -/
def dueEntry (u : RollUnit) (here : Nat) : RollUnit :=
  match u.plan.filter fun x => x.arming.isNone && repeatAtOrAfter here x.cut with
  | [] => u
  | [x] => if x.cut = here then u else mergeDue u [x] here
  | due => mergeDue u due here

/-- The cut offset of the current pattern, or 0. -/
def cutOffset (n : Node) : Int :=
  match curPattern n with
  | some p => p.cutOffset
  | none => 0

/-- R164: the knife position: after the knife position of every ARMED entry. -/
def knifePosition (n : Node) (edge : Pos) : Pos :=
  let k := movePos (movePos edge (cfg n).eyeToKnife) (cutOffset n)
  n.roll.plan.foldl
    (fun k e => match e.arming with
      | some a => if 0 < posDiff k a.knife then k else a.knife + 1
      | none => k) k

/-- R164: the entry at here is armed. -/
def armEntry (n : Node) (e : PlanEntry) (edge : Pos) : Node :=
  let pat := (curPattern n).map (·.code)
  let kind := if pat.isNone then .waste else e.kind
  let a : Arming := { tag := freeTag n.roll.plan, knife := knifePosition n edge,
                      job := match n.job.current with | some j => j.number | none => 0, pattern := pat }
  let n0 : Node := { n with roll := { n.roll with plan := updateEntry n.roll.plan e.cut fun x => { x with kind := kind } } }
  match armTrigger n0 .cut a.knife a.tag with
  | (n1, .refused) => n1
  | (n1, .armed) =>
    let u : RollUnit := { n1.roll with plan := updateEntry n1.roll.plan e.cut fun x => { x with arming := some a } }
    { n1 with roll := planFull (cfg n1) u e.cut kind pat }
  | (n1, .late) =>
    let u : RollUnit := { n1.roll with plan := updateEntry n1.roll.plan e.cut fun x =>
      { x with arming := some a, moved := true } }
    let n2 : Node := { n1 with roll := planFull (cfg n1) u e.cut kind pat }
    match entryAt n2.roll.plan e.cut with
    | some x => fireCut n2 x n2.travel.position
    | none => n2

/-- R164: arming at a real match report; until a piece is open nothing is armed (R158). -/
def armCuts (n : Node) (here : Nat) (edge : Pos) : Node :=
  if n.roll.piece.isNone then n
  else
    let n1 : Node := { n with roll := dueEntry n.roll here }
    match entryAt n1.roll.plan here with
    | some e => if e.arming.isNone then armEntry n1 e edge else n1
    | none => n1

/-- R158: the START piece. -/
def openStart (n : Node) (here : Nat) (edge : Pos) : Node :=
  match n.roll.piece, n.roll.nextRoll with
  | none, some next =>
    let p : OpenPiece :=
      { number := next, kind := .waste, first := here,
        opening := movePos (movePos edge (cfg n).eyeToKnife) (cutOffset n),
        job := match n.job.current with | some j => j.number | none => 0,
        pattern := n.job.current.map (·.pattern), full := 0, start := true }
    let u : RollUnit :=
      { n.roll with piece := some p, nextRoll := some (succIn rollRange next),
                    plan := n.roll.plan.filter fun e => repeatNewer e.cut here }
    let u1 :=
      match u.plan.head? with
      | some e => if e.kind = .roll then { u with plan := addReasons u.plan e.cut { start := true } }
                  else placeCut u (succIn repeatRange here) { start := true }
      | none => placeCut u (succIn repeatRange here) { start := true }
    { n with roll := u1 }
  | _, _ => n

/-- The Roll Builder at a match report: the JOB cut of a switch (R162), the START piece, then the arming. -/
def rollReport (n : Node) (here : Nat) (edge : Pos) (real : Bool) (switched : Option Nat) : Node :=
  if isRole n .rewind ∧ isJoined n then
    let n1 : Node := match switched with
      | some f => { n with roll := placeCut n.roll f { job := true } }
      | none => n
    let n2 := if n1.track.tracker = .track ∧ n.link.resume = none then openStart n1 here edge else n1
    if real then armCuts n2 here edge else n2
  else n

/-! ### Late batches (R160, R161) and CLOSE_ROLL (R163) -/

/-- R161: the change a late batch makes to a closed piece; none when its run ends before `r` or it is WASTE. -/
def lateChange (b r : Nat) (c : RollContent) : Option RollChange :=
  if c.kind = .waste ∨ !repeatAtOrAfter (lastIn repeatRange c.first c.count) r then none
  else if repeatAtOrAfter c.first r then some { late := false, batch := some b }
  else some { late := true, batch := none }

/-- R161: one closed piece of the own roll list is regraded. -/
def regradeListed (b r : Nat) (n : Node) (c : RollContent) : Node :=
  match lateChange b r c with
  | none => n
  | some ch => offerRegrade n c.number ch

/-- R161: web from `r` onward lies in pieces that have left the list. -/
def beyondList (u : RollUnit) (r : Nat) : Bool :=
  match u.list.head? with
  | some c => repeatNewer c.first r
  | none => u.awaiting.isEmpty

/-- R161: a new batch older than the open piece. Several changed entries of the roll list are offered in list order, the oldest
first: the model's choice (log entry 64). -/
def lateBatch (n : Node) (b r : Nat) : Node :=
  let u := n.roll
  let n1 : Node := { n with roll := { u with
      awaiting := u.awaiting.map fun c => match lateChange b r c with
        | some ch => changeRoll c ch
        | none => c,
      lateDecisions := u.lateDecisions + (if beyondList u r then 1 else 0) } }
  u.list.foldl (regradeListed b r) n1

/-- R160: the boundary of `r` is the ARMED entry `e`. -/
def lateEntry (n : Node) (e : PlanEntry) (r h : Nat) : Node :=
  if e.cut = r ∨ e.kind = .waste then n
  else
    let u : RollUnit := { n.roll with plan := updateEntry n.roll.plan e.cut fun x => { x with late := true } }
    { n with roll := placeCut u (succIn repeatRange h) { batch := true } }

/-- R160: the boundary of `r` is the open piece. -/
def latePiece (n : Node) (p : OpenPiece) (r h : Nat) : Node :=
  if p.first = r ∨ p.kind = .waste then n
  else
    { n with roll := placeCut { n.roll with piece := some { p with batchLate := true } } (succIn repeatRange h) { batch := true } }

/-- R160: the REWIND node takes a new batch with code `b` and first repeat `r`; that it must be JOINED is the model's reading
(log entry 38). -/
def rollBatch (n : Node) (b r : Nat) : Node :=
  if isRole n .rewind ∧ isJoined n then
    match n.track.here with
    | none => { n with roll := placeCut n.roll r { batch := true } }
    | some h =>
      if repeatNewer r h then { n with roll := placeCut n.roll r { batch := true } }
      else
        match n.roll.piece with
        | none => n
        | some p =>
          match (n.roll.plan.filter fun e => e.arming.isSome && repeatAtOrAfter r e.cut).getLast? with
          | some e => lateEntry n e r h
          | none => if repeatAtOrAfter r p.first then latePiece n p r h else lateBatch n b r
  else n

/-- REQUEST CLOSE_ROLL at the REWIND node (R163). -/
def closeRollRequest (n : Node) : Node :=
  if isRole n .rewind ∧ isJoined n then
    match n.track.here, n.roll.piece, n.link.resume with
    | some h, some _, none => { n with roll := placeCut n.roll (addIn repeatRange h 2) { operator := true } }
    | _, _, _ => countRefusal n
  else n

/-! ### Resume window and leaving JOINED -/

/-- R38: the resume window of the REWIND node closes. -/
def rollStart (n : Node) : Node :=
  if isRole n .rewind ∧ isJoined n then
    { n with roll := { n.roll with nextRoll := some (numberAfter rollRange n.link.newestRoll) } }
  else n

/-- R175: the builder cancels its ARMED entries and returns to its reset values, apart from its counters and two lists. -/
def rollLeave (n : Node) : Node :=
  let tags := n.roll.plan.filterMap fun e => e.arming.map (·.tag)
  let n1 := tags.foldl (fun m t => (cancelTrigger m t).1) n
  { n1 with roll :=
      { list := n1.roll.list, departed := n1.roll.departed, planRefusals := n1.roll.planRefusals,
        cutsMoved := n1.roll.cutsMoved, lateDecisions := n1.roll.lateDecisions } }

end Sys2Proof.Machine
end

