-- ==== Sys2Proof/Machine/Job.lean ====
section
/-! DEFINITION. The Job Unit (R67 to R81): the given job and the history, NEW_JOB at the KEY, the switch of the current
job, the length check. -/

namespace Sys2Proof.Machine

/-! ### The given job and the history (R67 to R69) -/

/-- R69: a record enters the job history. -/
def enterHistory (h : List JobRecord) (j : JobRecord) : List JobRecord :=
  if h.any fun x => decide (x.number = j.number) then h.map fun x => if x.number = j.number then j else x
  else (h ++ [j]).drop (h.length + 1 - 4)

/-- The given job becomes this record, and the record enters the history. -/
def giveJob (n : Node) (j : JobRecord) : Node :=
  { n with job := { n.job with given := some j, history := enterHistory n.job.history j } }

/-- The carried job number is newer than that of the given job, or there is none. -/
def newerThanGiven (n : Node) (number : Nat) : Bool :=
  match n.job.given with
  | none => true
  | some g => newer jobRange number g.number

/-- R67, R68, R198: a JOB outcome for this station is written as the job answer, and JOB_ANSWER asserts ATTN (R199). -/
def answerJob (n : Node) (requester : Nat) (a : JobAnswer) : Node :=
  if requester = (cfg n).station then attend { n with port := { n.port with answer := a } } attAnswer else n

/-! ### NEW_JOB at the KEY (R70 to R72) -/

/-- The JOB TAKEN of a job in offer. -/
def takenTelegram (j : JobRecord) (station : Nat) : Telegram :=
  .jobTaken { number := j.number, pattern := j.pattern, first := j.first, requester := station }

/-- R72: the JOB TAKEN of the job in offer is offered. -/
def offerJob (n : Node) : Node :=
  match n.job.inOffer with
  | none => n
  | some o => offerAgain n (takenTelegram o.1 o.2) false .job .job

/-- R71: a refusal. -/
def refuseJob (n : Node) (q : NewJobRequest) : Node :=
  countRefusal
    (offerPlain n (.jobRefused { number := match n.job.given with | some g => g.number | none => 0,
                                 pattern := q.pattern, first := 0, requester := q.station }))

/-- R71: the KEY decides a request. -/
def decideJob (n : Node) (q : NewJobRequest) : Node :=
  match findPattern (cfg n) q.pattern, n.job.nextJob, n.track.nextRepeat with
  | some _, some j, some f =>
    if q.pattern = 0 then refuseJob n q
    else
      offerJob { n with job := { n.job with nextJob := some (succIn jobRange j),
                                            inOffer := some ({ number := j, pattern := q.pattern, first := f }, q.station) } }
  | _, _, _ => refuseJob n q

/-- R70: a request joins the end of the held requests. -/
def holdRequest (n : Node) (q : HeldRequest) : Node := { n with job := { n.job with held := n.job.held ++ [q] } }

/-- R70: the NEW_JOB requests among the held ones. -/
def heldJobs (n : Node) : List HeldRequest := n.job.held.filter fun q => match q with
  | .newJob _ => true
  | .operator _ => false

/-- REQUEST NEW_JOB at the KEY (R70). -/
def newJobRequest (n : Node) (q : NewJobRequest) : Node :=
  if isRole n .key ∧ isJoined n then
    if n.link.resume.isSome ∨ n.job.inOffer.isSome then
      if (heldJobs n).length < 4 then holdRequest n (.newJob q) else refuseJob n q
    else decideJob n q
  else n

/-! ### The switch of the current job (R73 to R76) -/

/-- R73, R74: a switch to `j` is due at repeat `x`. -/
def switchDue (n : Node) (j : JobRecord) (x : Nat) : Bool :=
  (match n.job.current with
   | none => true
   | some c => decide (c.number ≠ j.number)) && repeatAtOrAfter x j.first

/-- R76 to R78: the Job Unit's own effects of a switch; a tally span then running is stale. One of an earlier key edge that has
not begun yet begins after the switch's key mark, so its read lowers the suspension (log entry 58). -/
def makeSwitch (n : Node) (j : JobRecord) : Node :=
  { n with
    job := { n.job with current := some j, unknownPart := false, lengthPart := false, tallyPart := false,
                        outside := 0, inside := 0, suspension := 2 },
    marks := { n.marks with span := n.marks.span.map fun sp =>
      { sp with stale := sp.stale || spanBegun (cfg n) sp n.travel.position } } }

/-- R75, R76: the test for a switch to `j` at repeat `x`; the answer is whether the switch was made. -/
def testSwitch (n : Node) (j : Option JobRecord) (x : Nat) : Node × Bool :=
  match j with
  | none => (n, false)
  | some j =>
    if switchDue n j x then
      if (findPattern (cfg n) j.pattern).isSome then (makeSwitch n j, true)
      else ({ n with job := { n.job with unknownPart := true } }, false)
    else (n, false)

/-- R74: the job that the KEY tests. -/
def keyJob (n : Node) : Option JobRecord :=
  match n.job.inOffer with
  | some o => some o.1
  | none => n.job.given

/-! ### The length check (R77) -/

/-- R77: a length is inside the window of a pattern. -/
def lengthInside (p : Pattern) (len : Nat) : Bool := decide (p.windowMin ≤ len) && decide (len ≤ p.windowMax)

/-- R77: an inside or outside length. -/
def countLength (u : JobUnit) (inside : Bool) : JobUnit :=
  if inside then
    { u with inside := min 4 (u.inside + 1), outside := 0, lengthPart := u.lengthPart && decide (u.inside + 1 < 4) }
  else
    { u with outside := min 4 (u.outside + 1), inside := 0, lengthPart := u.lengthPart || decide (4 ≤ u.outside + 1) }

/-- R77, R80: one measured length is tested. -/
def lengthCheck (n : Node) (len : Nat) : Node :=
  let n1 : Node := { n with job := { n.job with observedLength := some len } }
  formObserved
    (match curPattern n1 with
     | some p => { n1 with job := countLength n1.job (lengthInside p len) }
     | none => n1)

/-- R38, R48: the numbering of the KEY starts. -/
def keyStart (n : Node) : Node :=
  if isRole n .key ∧ isJoined n then
    { n with
      track := { n.track with nextRepeat := some (numberAfter repeatRange n.link.newestRepeat), prevIndex := none, running := true },
      job := { n.job with nextJob := some (numberAfter jobRange n.link.newestJob) } }
  else n

/-- R48, R70, R72: leaving JOINED. -/
def jobLeave (n : Node) : Node :=
  { n with job := { n.job with inOffer := none, held := [] }, track := { n.track with running := false } }

end Sys2Proof.Machine
end

