-- ==== Sys2Proof/Machine/Track.lean ====
section
/-! DEFINITION. The Repeat Track (R42 to R64): the repeat table, the issuer of the KEY, matching and the tracker, and the
match report with what each block does at it. -/

namespace Sys2Proof.Machine

/-! ### The issuer (R48 to R51) -/

/-- R51: the arrivals that lie before I + L leave the queue; the oldest of them gives the offset. -/
def takeSplices (queue : List Pos) (i : Pos) (len : Nat) : List Pos × Option Nat :=
  let due := queue.filter fun a => decide (posDiff a (movePos i len) < 0)
  (queue.filter fun a => !decide (posDiff a (movePos i len) < 0),
   due.head?.map fun a => (posDiff a i).toNat)

/-- R49: repeat `x` of length `len` is issued at index position `i`. -/
def issueRepeat (n : Node) (x : Nat) (len : Nat) (i : Pos) : Node :=
  let sp := takeSplices n.track.splices i len
  let n1 : Node := { n with track := { n.track with
      splices := sp.1, nextRepeat := some (succIn repeatRange x), newestIssued := some x, prevIndex := some i } }
  let n2 := lengthCheck (testSwitch n1 (keyJob n1) x).1 len
  offerPlain n2
    (.repeat_ { number := x, length := len, job := match n2.job.current with | some j => j.number | none => 0,
                splice := sp.2 })

/-- R48, R49: an accepted index that issues a repeat: the node before the Hold Unit takes the step. -/
def indexIssues (n : Node) : Option Node :=
  match n.track.prevIndex, n.track.nextRepeat with
  | some p, some x =>
    let i := n.travel.position
    let travel := (i - p).toNat
    if isRole n .key ∧ n.track.running ∧ 1250 ≤ travel then
      some (boundary (issueRepeat n x (min travel 65535) i) i n.now true)
    else none
  | _, _ => none

/-- CYLINDER_INDEX: a rising edge on INDEX at the KEY (R48, R49); the first one is only held. -/
def cylinderIndex (n : Node) : Node :=
  match indexIssues n with
  | some m => holdReport m
  | none =>
    if isRole n .key ∧ n.track.running ∧ n.track.prevIndex.isNone then
      let i := n.travel.position
      holdSettle (boundary { n with track := { n.track with prevIndex := some i } } i n.now true)
    else n

/-- R50: no last detection is held, or the travel since it is at least 1,000 ticks. -/
def spliceFresh (n : Node) : Bool :=
  match n.track.lastSplice with
  | none => true
  | some q => decide (1000 ≤ (n.travel.position - q).toNat)

/-- SPLICE_DETECTION: a rising edge on SPLICE at the KEY (R50). -/
def spliceDetection (n : Node) : Node :=
  let p := n.travel.position
  if isRole n .key ∧ (n.st = .listening ∨ n.st = .joining ∨ n.st = .joined) ∧ spliceFresh n then
    if n.track.splices.length < 4 then
      { n with track := { n.track with
          lastSplice := some p, splices := n.track.splices ++ [movePos p (cfg n).spliceDistance] } }
    else
      holdSettle (raiseLinkFault { n with track := { n.track with
          lastSplice := some p, spliceOverflows := n.track.spliceOverflows + 1 } })
  else n

/-! ### The table (R43 to R47) -/

/-- R43: the record that an applied REPEAT appends. -/
def newRecord (n : Node) (p : RepeatPayload) : RepeatRecord :=
  { number := p.number, length := p.length, job := p.job, splice := p.splice,
    batch := match (n.batch.list.filter fun b => decide (b.state ≠ .closed)).getLast? with
      | some b => b.code
      | none => 0,
    heldBy := n.hold.list.foldl
      (fun s h => if h.last.isNone then s ||| BitVec.ofNat 32 (2 ^ (h.station - 1)) else s) 0 }

/-- R52: a pending record is newer than here. -/
def isPending (n : Node) (r : RepeatRecord) : Bool :=
  match n.track.here with
  | none => true
  | some h => repeatNewer r.number h

/-- R44: the oldest record is evicted. -/
def evictRecord (n : Node) : Node :=
  match n.track.table with
  | [] => n
  | r :: rest =>
    let n1 : Node := { n with track := { n.track with table := rest, evictions := n.track.evictions + 1 } }
    let n2 : Node := if isRole n .rewind then { n1 with roll := { n1.roll with lastGap := some r.number } } else n1
    if eyeRole n ∧ isPending n r then
      { n2 with track := { n2.track with here := some r.number, missed := n2.track.missed + 1 } }
    else n2

/-- R43: the carried repeat number is not newer than the newest present one. -/
def repeatTooOld (n : Node) (x : Nat) : Bool :=
  match newestRecord n with
  | some r => !repeatNewer x r.number
  | none => false

/-- R43: an applied REPEAT; it is set aside when the sender is not the KEY or the number is not newer. -/
def appendRepeat (n : Node) (sender : Nat) (p : RepeatPayload) : Node :=
  if !heldAs n sender .key ∨ repeatTooOld n p.number then n
  else
    let n1 := if n.track.table.length < 512 then n else evictRecord n
    let n2 : Node := { n1 with track := { n1.track with table := n1.track.table ++ [newRecord n1 p] } }
    let n3 := if isRole n2 .label then (testSwitch n2 n2.job.given p.number).1 else n2
    match p.splice with
    | some _ => planSplice n3 p.number
    | none => n3

def updateRecord (n : Node) (x : Nat) (f : RepeatRecord → RepeatRecord) : Node :=
  { n with track := { n.track with table := n.track.table.map fun r => if r.number = x then f r else r } }

/-- R45: an applied REGISTER. -/
def applyRegister (n : Node) (sender : Nat) (p : RegisterPayload) : Node :=
  let emboss := heldAsSlot n sender .emboss 8 && decide (p.slot = 8)
  let n1 :=
    if 1 ≤ p.slot ∧ (emboss ∨ heldAsSlot n sender .print p.slot) then
      updateRecord n p.number fun r =>
        { r with results := r.results.set (p.slot - 1) (some { state := p.state, error := p.error, steps := p.steps }) }
    else n
  match p.nip with
  | some c => if heldAs n sender .emboss then updateRecord n1 c.1 fun r => { r with nip := some c.2 } else n1
  | none => n1

/-- R46: an applied SHADE. -/
def applyShade (n : Node) (sender : Nat) (p : ShadePayload) : Node :=
  if heldAs n sender .shade then
    updateRecord n p.number fun r => { r with shade := some { grade := p.grade, left := p.left, right := p.right } }
  else n

/-- R47: the present records of a run leave the table. -/
def retireRun (n : Node) (first count : Nat) : Node :=
  { n with track := { n.track with table := n.track.table.filter fun r => !inRun repeatRange first count r.number } }

/-! ### The match report (R54) -/

/-- R54: what a match report carries; `wasTrack` is the tracker state before the match (R6), `missed` the records the
match counted missed. -/
structure MatchReport where
  number : Nat
  edge : Pos
  time : Nat
  real : Bool
  wasTrack : Bool
  missed : List RepeatRecord
  deriving DecidableEq, Repr

/-- R62: at a switch the tracker in ALIGN or TRACK returns to SEARCH when the nominal lengths differ by more than 5 %. -/
def switchFalls (n : Node) (old new : Option Pattern) : Bool :=
  match old, new with
  | some a, some b =>
    decide (a.nominal < 20 * ((a.nominal : Int) - b.nominal).natAbs) &&
      (decide (n.track.tracker = .align) || decide (n.track.tracker = .track))
  | _, _ => false

/-- R6, R62: the boundary of a report; at a report that moves the tracker to SEARCH the memory is then cleared, after the Hold
Unit has taken a step that the boundary found (R139). -/
def travelReport (n : Node) (r : MatchReport) (falls : Bool) : Node :=
  let n1 := if r.real then boundary n r.edge r.time r.wasTrack else travelForget n
  if falls then travelForget (holdSettle n1) else n1

/-- The first repeat of the job of a switch that was made. -/
def switchedFirst (n : Node) (made : Bool) : Option Nat := if made then n.job.current.map (·.first) else none

/-- R77: the length check of a report. -/
def reportLength (n : Node) (x : Nat) : Node :=
  match findRecord n x with
  | some r => lengthCheck n r.length
  | none => n

/-- The splice offset of the matched record (R110). -/
def spliceOf (n : Node) (x : Nat) : Option Nat := (findRecord n x).bind (·.splice)

/-- The node with its tracker back in SEARCH, as R62 leaves it at a switch. -/
def fallen (n : Node) : Node := clearSearch { n with track := { n.track with tracker := .search } }

/-- The switch that a match report tests (R73), with whether it was made. -/
def reportSwitch (n : Node) (r : MatchReport) : Node × Bool := testSwitch n n.job.given r.number

/-- R62: the report moves the tracker to SEARCH. -/
def reportFalls (n : Node) (r : MatchReport) : Bool :=
  (reportSwitch n r).2 && switchFalls (reportSwitch n r).1 (curPattern n) (curPattern (reportSwitch n r).1)

/-- A match report up to the window that it closes: the switch, the boundary, the length check and the hold of the loop. -/
def reportStart (n : Node) (r : MatchReport) : Node :=
  let sw := reportSwitch n r
  let falls := reportFalls n r
  let n2 := if falls then fallen sw.1 else sw.1
  let n3 := reportLength (travelReport n2 r falls) r.number
  holdLoop (if sw.2 ∨ falls then loopToOpen n3 else n3)

/-- The report closes the open window, and then lowers the settle count (R97). -/
def reportClose (n : Node) (r : MatchReport) : Node := settleReport (closeWindow (reportStart n r))

/-- The repeat's own window opens. -/
def reportOpen (n : Node) (r : MatchReport) : Node :=
  openWindow n r.number r.edge (!r.real) (decide (n.track.tracker = .track))

/-- R54, R73, R76: the report goes to the blocks, in the order of log entry 13: the switch first, then the window that the
report closes, whose result is an earlier repeat's, and then the settle count (R97) and the repeat's own window. The hold
factors and the quiet repeat are taken at the end of the step. -/
def matchReport (n : Node) (r : MatchReport) : Node :=
  let made := (reportSwitch n r).2
  let n5 := reportOpen (reportClose n r) r
  let n6 := nipReport n5 r.number r.edge r.real made (spliceOf n5 r.number) (r.missed.any fun x => x.splice.isSome)
  let n7 := shadeReport n6 r.number (switchedFirst n6 made)
  rollReport n7 r.number r.edge r.real (switchedFirst n7 made)

/-! ### Matching (R53, R55) -/

/-- R53: the expected depth in tenths, an exact half rounded up. -/
def expectedDepth (keyToEye len : Nat) : Nat := (20 * keyToEye + len) / (2 * len)

/-- The expected depth now; none with an empty table. A length of 0 leaves it unstated (log entry 4). -/
def depthTenths (n : Node) : Option Nat :=
  (newestRecord n).map fun r => if r.length = 0 then freeNat n else expectedDepth (cfg n).keyToEye r.length

/-- R53: a depth lies from x − 1.5 to x + 1.5. -/
def depthFits (x d : Nat) : Bool := decide (x ≤ 10 * d + 15) && decide (10 * d ≤ x + 15)

/-- R53: the oldest pending record that qualifies, with the pending records older than it and its depth. -/
def findMatch (pendingOf : RepeatRecord → Bool) (x : Nat) :
    List RepeatRecord → List RepeatRecord → Option (RepeatRecord × List RepeatRecord × Nat)
  | _, [] => none
  | skipped, r :: rest =>
    if pendingOf r then
      if depthFits x rest.length then some (r, skipped, rest.length) else findMatch pendingOf x (skipped ++ [r]) rest
    else findMatch pendingOf x skipped rest

/-- R55: the prediction length after a match of record `x`. -/
def predictionLength (n : Node) (x : Nat) : Nat :=
  match n.track.table.find? fun r => repeatNewer r.number x with
  | some r => r.length
  | none =>
    match findRecord n x with
    | some r => r.length
    | none => n.track.predLen.getD 0

/-- R55: the predicted position after a mark at `edge`, real or synthesised. -/
def predictFrom (n : Node) (x : Nat) (edge : Pos) : Node :=
  let len := predictionLength n x
  { n with track := { n.track with predLen := some len, predicted := some (movePos edge len) } }

/-- R53: a match of `r`: the skipped records are counted missed and here names `r`. -/
def takeMatch (n : Node) (m : RepeatRecord × List RepeatRecord × Nat) (edge : Pos) : Node :=
  predictFrom
    { n with track := { n.track with here := some m.1.number, lastDepth := some m.2.2,
                                     missed := n.track.missed + BitVec.ofNat 32 m.2.1.length } }
    m.1.number edge

/-- R57 to R59: the tracker state after a match. -/
def matchedState (n : Node) : Node :=
  match n.track.tracker with
  | .align =>
    if n.track.alignCount + 1 < 4 then { n with track := { n.track with alignCount := n.track.alignCount + 1 } }
    else { n with track := { n.track with tracker := .track, alignCount := 4, missCount := 0, tracked := true } }
  | .track => { n with track := { n.track with missCount := 0 } }
  | _ => { n with track := { n.track with tracker := .align, alignCount := 1 } }

/-- R60: LOST is entered. -/
def enterLost (n : Node) : Node :=
  let n1 := trackerTo n .lost
  { n1 with track := { n1.track with lostStart := some n1.travel.position, missCount := 0, predicted := none } }

/-- R59, R60: a miss; the third in a row enters LOST. -/
def countMiss (n : Node) : Node :=
  if n.track.missCount + 1 < 3 then { n with track := { n.track with missCount := n.track.missCount + 1 } } else enterLost n

def countUnclaimed (n : Node) : Node := { n with track := { n.track with unclaimed := n.track.unclaimed + 1 } }

/-- R57 to R59: what an unclaimed mark offered to matching does to the tracker. -/
def unclaimedMark (n : Node) (edge : Pos) : Node :=
  let n1 := countUnclaimed n
  match n.track.tracker with
  | .align => clearSearch (trackerTo n1 .search)
  | .track =>
    countMiss { n1 with track := { n1.track with predicted := some (movePos edge (n1.track.predLen.getD 0)) } }
  | _ => n1

/-- The expected depth was read: where it is unstated, its free value is used up (log entry 4). -/
def useDepth (n : Node) : Node := if (newestRecord n).map (·.length) = some 0 then useFree n 1 else n

/-- R53: the match of a key mark, if any, with the report it makes. -/
def markReport (n : Node) (edge : Pos) (time : Nat) : Option (Node × MatchReport) :=
  ((depthTenths n).bind fun x => findMatch (isPending n) x [] n.track.table).map fun m =>
    (matchedState (takeMatch (useDepth n) m edge),
     { number := m.1.number, edge := edge, time := time, real := true, wasTrack := decide (n.track.tracker = .track),
       missed := m.2.1 })

/-- R53: a key mark is offered to matching. -/
def offerMark (n : Node) (edge : Pos) (time : Nat) : Node :=
  match markReport n edge time with
  | some p => matchReport p.1 p.2
  | none => unclaimedMark (useDepth n) edge

/-- R55: 5 % of the prediction length, in whole ticks rounded down. -/
def windowHalf (n : Node) : Int := (n.track.predLen.getD 0 / 20 : Nat)

/-- R55: an edge lies in the tracker window. No mark is kept that an earlier window was served: a further key mark that lies
in the next window as well is offered to matching by that one, the model's choice (log entry 56). -/
def inTrackerWindow (n : Node) (edge : Pos) : Bool :=
  match n.track.predicted with
  | none => false
  | some p => decide (((posDiff edge p).natAbs : Int) ≤ windowHalf n)

/-- R58, R59: a key mark outside the window of ALIGN or TRACK is stray. -/
def strayKeyMark (n : Node) (edge : Pos) : Bool :=
  (decide (n.track.tracker = .align) || decide (n.track.tracker = .track)) && !inTrackerWindow n edge

def countStray (n : Node) : Node := { n with marks := { n.marks with stray := n.marks.stray + 1 } }

/-- The matcher takes a key mark that is not stray (Table 21). -/
def trackMark (n : Node) (edge : Pos) (time : Nat) : Node :=
  match n.track.tracker with
  | .idle => countUnclaimed n
  | .lost => countUnclaimed n
  | _ => offerMark n edge time

/-- A key mark (R8, R12, R56 to R61): a stray one is counted; any other ends a running tally span with a failed read, is
taken by the matcher, and starts a tally span. That the failed read comes before the match is the model's choice (log entry 59). -/
def keyMark (n : Node) (edge : Pos) (time : Nat) : Node :=
  if strayKeyMark n edge then countStray n
  else startSpan (trackMark (failSpan n) edge time) edge

/-- Table 8: the width of a KEY mark. -/
def keyWidth (width : Int) : Bool := decide (40 ≤ width) && decide (width ≤ 60)

/-- R8, Table 8: a mark of this width is classified. -/
def classifyMark (n : Node) (m : Mark) (width : Int) : Node :=
  if keyWidth width then keyMark n m.edge m.time
  else if m.inSpan then n
  else if 15 ≤ width ∧ width ≤ 30 then (if isRole n .print then colourMark n m.edge else n)
  else countStray n

/-- Whether the here pointer moved: the step carried a match report. -/
def reported (before after : Node) : Bool := decide (before.track.here ≠ after.track.here)

/-- The Hold Unit at the end of a step that may carry a match report. -/
def settleAfter (before after : Node) : Node := if reported before after then holdReport after else holdSettle after

/-- R8: the EYE line is light. -/
def lightEdge (n : Node) : Node := { n with pins := { n.pins with eyeDark := false } }

/-- R8: the mark that a light edge ends, with the node that classifies it. -/
def markEnded (n : Node) : Option (Node × Mark) :=
  match n.marks.mark with
  | none => none
  | some m =>
    let n1 := lightEdge n
    if n.pins.eyeDark ∧ eyeRole n ∧ n.travel.debt = 0 then some ({ n1 with marks := { n1.marks with mark := none } }, m) else none

/-- The width of a mark that ends here. -/
def markWidth (n : Node) (m : Mark) : Int := posDiff n.travel.position m.edge

/-- R8: a light edge that classifies a mark: the node before the Hold Unit takes the step. -/
def markTaken (n : Node) : Option Node := (markEnded n).map fun p => classifyMark p.1 p.2 (markWidth p.1 p.2)

/-- A light edge that ends a key mark which is not stray: the mark, with the node that takes it. -/
def keyMarkEnded (n : Node) : Option (Node × Mark) :=
  (markEnded n).filter fun p => keyWidth (markWidth p.1 p.2) && !strayKeyMark p.1 p.2.edge

/-- MARK_TRAILING_EDGE: a dark-to-light edge on EYE (R8). -/
def markTrailingEdge (n : Node) : Node :=
  match markTaken n with
  | some m => settleAfter n m
  | none => lightEdge n

/-! ### Window ends (R58, R60, R61) -/

/-- R55: the local position has passed 61 ticks beyond the last position of the window. -/
def trackerWindowOver (n : Node) : Bool :=
  match n.track.predicted with
  | none => false
  | some p => decide (windowHalf n + 61 ≤ posDiff n.travel.position p)

/-- R60: the oldest pending record. -/
def oldestPending (n : Node) : Option RepeatRecord := n.track.table.find? (isPending n)

/-- R60: the mark of the oldest pending record, if any, is synthesised at the predicted position. The time of its report is that
of the window's end, the model's choice (log entry 57). -/
def synthReport (n : Node) (p : Pos) : Option (Node × MatchReport) :=
  (oldestPending n).map fun r =>
    (predictFrom { n with track := { n.track with here := some r.number, missed := n.track.missed + 1 } } r.number p,
     { number := r.number, edge := p, time := n.now, real := false, wasTrack := true, missed := [] })

/-- R60: the report of a synthesised mark; with no pending record the prediction moves on. -/
def synthesise (n : Node) (p : Pos) : Node :=
  match synthReport n p with
  | some q => matchReport q.1 q.2
  | none => { n with track := { n.track with predicted := some (movePos p (n.track.predLen.getD 0)) } }

/-- R58, R60: a tracker window that ends with no key mark in it: the node before the Hold Unit takes the step. The factor
changes of a synthesised report are taken before the miss it counts can drop what they show (R126, R139). -/
def windowMissed (n : Node) : Option Node :=
  if trackerWindowOver n then
    match n.track.tracker, n.track.predicted with
    | .align, _ => some (clearSearch (trackerTo n .search))
    | .track, some p =>
      let n1 := synthesise n p
      some (if n1.track.tracker = .track then countMiss (holdSettle n1) else n1)
    | _, _ => none
  else none

/-- TRACKER_WINDOW_END (R58, R60). -/
def trackerWindowEnd (n : Node) : Node :=
  match windowMissed n with
  | some m => settleAfter n m
  | none => n

/-- LOST_HOLD_OFF_END: the local position has passed the LOST start position by twice the prediction length (R61). -/
def lostHoldOffEnd (n : Node) : Node :=
  match n.track.tracker, n.track.lostStart with
  | .lost, some p =>
    if ((2 * n.track.predLen.getD 0 : Nat) : Int) ≤ posDiff n.travel.position p then
      holdSettle (clearSearch (trackerTo n .search))
    else n
  | _, _ => n

/-! ### Firing triggers (R16) -/

/-- One due entry fires; the firing position is the entry's own (log entry 15). -/
def fireEntry (n : Node) (e : TriggerEntry) : Node :=
  match e.output with
  | .cut => cutFired (cutPulse n) e.tag e.position
  | _ => nipFired n e.tag

/-- The due entries at the front of the table fire in order, each removed as it fires. -/
def fireDue : Nat → Node → Node
  | 0, n => n
  | k + 1, n =>
    match n.trig.entries with
    | [] => n
    | e :: rest =>
      if passed n.travel.position e.position then
        fireDue k (fireEntry { n with trig := { n.trig with entries := rest } } e)
      else n

/-- TRIGGER_FIRE (R16): every entry due at the local position, after all the advances of the count that reached it (log
entry 60). -/
def triggerFire (n : Node) : Node := holdSettle (fireDue n.trig.entries.length n)

/-- CUT_PULSE_END: 20 ms after the last CUT firing (R16). -/
def cutPulseEnd (n : Node) : Node := if n.trig.cut = some 0 then { n with trig := { n.trig with cut := none } } else n

end Sys2Proof.Machine
end

