-- ==== Sys2Proof/Machine/Hold.lean ====
section
/-! DEFINITION. The hold list (R150 to R153) and the operator's requests (R142, R148). The Hold Unit's own handling of
factors and statements is in Ops. -/

namespace Sys2Proof.Machine

/-- R150: the sender is held with a holding role, and not as BENCHED. -/
def holdSender (n : Node) (s : Nat) : Bool :=
  heldAs n s .key || heldAs n s .print || heldAs n s .emboss || heldAs n s .shade || heldAs n s .rewind

def stationBit (s : Nat) : StationSet := BitVec.ofNat 32 (2 ^ (s - 1))

/-- The OPEN entry of a station. -/
def openHoldOf (n : Node) (s : Nat) : Option HoldEntry :=
  n.hold.list.find? fun h => decide (h.station = s) && h.last.isNone

def updateOpen (l : List HoldEntry) (s : Nat) (f : HoldEntry → HoldEntry) : List HoldEntry :=
  l.map fun h => if h.station = s ∧ h.last.isNone then f h else h

/-- R150: the station joins the held-by set of every present record at or after `x`. -/
def markHeld (n : Node) (s x : Nat) : Node :=
  let f := fun (r : RepeatRecord) =>
    if repeatAtOrAfter r.number x then { r with heldBy := r.heldBy ||| stationBit s } else r
  { n with track := { n.track with table := n.track.table.map f } }

/-- R151: the station leaves the held-by set of every present record newer than `m`. -/
def unmarkHeld (n : Node) (s m : Nat) : Node :=
  let f := fun (r : RepeatRecord) =>
    if repeatNewer r.number m then { r with heldBy := r.heldBy &&& ~~~stationBit s } else r
  { n with track := { n.track with table := n.track.table.map f } }

/-- R152: the oldest CLOSED entry makes room in a full list. -/
def roomForHold (l : List HoldEntry) : List HoldEntry :=
  if l.length < 32 then l else (removeFirst (fun h => h.last.isSome) l).getD l

/-- R150: the older of two repeats. -/
def olderRepeat (a b : Nat) : Nat := if repeatNewer a b then b else a

/-- R150: an applied HOLD SET. -/
def applyHoldSet (n : Node) (s x : Nat) (c : CauseSet) : Node :=
  if !holdSender n s then n
  else
    match openHoldOf n s with
    | some h =>
      let first := olderRepeat h.first x
      markHeld
        { n with hold := { n.hold with list := updateOpen n.hold.list s fun h =>
            { h with first := first, causes := h.causes ||| c } } } s first
    | none =>
      markHeld
        { n with hold := { n.hold with
            list := roomForHold n.hold.list ++ [{ station := s, first := x, last := none, causes := c }] } } s x

/-- R151: an applied HOLD CLEAR. -/
def applyHoldClear (n : Node) (s m : Nat) : Node :=
  if !holdSender n s then n
  else
    unmarkHeld
      { n with hold := { n.hold with list := updateOpen n.hold.list s fun h => { h with last := some m } } } s m

/-- R153: the OPEN entry of a station that joins or is benched is closed. -/
def closeHoldOf (n : Node) (s : Nat) : Node :=
  { n with hold := { n.hold with list := updateOpen n.hold.list s fun h =>
      { h with last := some (match newestRecord n with
          | some r => r.number
          | none => subIn repeatRange h.first 1) } } }

/-- R147: a ROLL without the restate flag at or after the roll target clears the hold at its last repeat. -/
def rollClears (n : Node) (last : Nat) : Node :=
  match n.hold.target with
  | some t =>
    if holdWorks n ∧ n.hold.state = .waitingRoll ∧ repeatAtOrAfter last t then clearHold n last else n
  | none => n

/-- R152: CLOSED entries retire at a ROLL whose last repeat is at or after theirs. -/
def retireHolds (n : Node) (last : Nat) : Node :=
  { n with hold := { n.hold with list := n.hold.list.filter fun h =>
      match h.last with
      | none => true
      | some l => !repeatAtOrAfter last l } }

/-- R142: HOLD_ON naming this node. -/
def takeHoldOn (n : Node) : Node :=
  if (cfg n).factorMask.getLsbD 9 then { n with hold := { n.hold with operator := true } } else countRefusal n

/-- R148: a factor other than OPERATOR stands in the factor set. -/
def otherFactor (n : Node) : Bool := decide (factorSet n &&& 0x1FF ≠ 0)

/-- R148: CLEAR_HOLD naming this node. -/
def takeClearHold (n : Node) : Node :=
  if n.hold.state = .clear ∨ otherFactor n then countRefusal n
  else
    let n1 : Node := { n with hold := { n.hold with operator := false } }
    clearHold n1 (holdReference n1)

/-- HOLD_ON and CLEAR_HOLD act at the JOINED holding node they name; at a KEY whose resume window is open they are held
until it closes (R38, log entry 22). -/
def operatorRequest (n : Node) (station : Nat) (on : Bool) : Node :=
  if station = (cfg n).station ∧ isJoined n ∧ holdRole n then
    if isRole n .key ∧ n.link.resume.isSome then
      holdRequest n (.operator on)
    else if on then takeHoldOn n else takeClearHold n
  else n

/-- R38, R70: one held request is taken. An operator's request acts, and the Hold Unit takes what it changes; a NEW_JOB is
decided, or stays held while a job is in offer. -/
def takeHeldRequest (n : Node) (q : HeldRequest) : Node :=
  match q with
  | .operator on => holdSettle (if on then takeHoldOn n else takeClearHold n)
  | .newJob r => if n.job.inOffer.isSome then holdRequest n q else decideJob n r

/-- R38, R70: the held requests are taken in the order of application (log entry 22). -/
def takeHeld (n : Node) : Node := n.job.held.foldl takeHeldRequest { n with job := { n.job with held := [] } }

/-- R143: the resume window closes; a factor set that is not empty sets a hold at once. -/
def holdStart (n : Node) : Node := holdSettle { n with hold := { n.hold with seen := 0 } }

end Sys2Proof.Machine
end

