-- ==== Sys2Proof/Machine/Label.lean ====
section
/-! DEFINITION. The roll list and the departed list (R170 to R172) and the Label Composer (R176 to R188). -/

namespace Sys2Proof.Machine

/-! ### Dispositions and outcomes (R176, R186) -/

/-- The composer works: a LABEL node that is JOINED (R187). -/
def labelWorks (n : Node) : Bool := isRole n .label && isJoined n

def dispositionOf (n : Node) (number : Nat) : Option Disposition :=
  (n.label.disps.find? fun d => decide (d.1 = number)).map (·.2)

def dropDisposition (n : Node) (number : Nat) : Node :=
  { n with label := { n.label with disps := n.label.disps.filter fun d => decide (d.1 ≠ number) } }

def setDisposition (n : Node) (number : Nat) (d : Disposition) : Node :=
  { n with label := { n.label with disps := (n.label.disps.filter fun x => decide (x.1 ≠ number)) ++ [(number, d)] } }

def inRollList (n : Node) (number : Nat) : Bool := n.roll.list.any fun c => decide (c.number = number)

/-- R186: the outcome of this serial leaves the list. -/
def dropOutcome (n : Node) (serial : Nat) : Node :=
  { n with label := { n.label with outcomes := n.label.outcomes.filter fun x => decide (x.serial ≠ serial) } }

/-- R186: a LABELLED is offered. A refusal leaves it for the next own completion, but one for roll number 0 leaves the list. One that
is discarded because DOWN is queued (R32) stays among the outcomes in offer: the model's choice (log entry 65). -/
def offerLabelled (n : Node) (o : OutcomeEntry) : Node :=
  match enqueue n (.labelled o.number o.outcome) false (.labelled o.serial) with
  | (n', .refused) => if o.number = 0 then dropOutcome n' o.serial else refuseLater n' (.labelled o)
  | (n', _) => n'

/-- R186: with 32 outcomes in offer the composer stops following the oldest one of roll number 0 or of a roll that has left
the roll list. -/
def roomForOutcome (n : Node) : List OutcomeEntry :=
  if n.label.outcomes.length < 32 then n.label.outcomes
  else (removeFirst (fun x => decide (x.number = 0) || !inRollList n x.number) n.label.outcomes).getD n.label.outcomes

/-- R186: a decided outcome joins the outcomes in offer, and its LABELLED is offered. -/
def joinOutcome (n : Node) (number : Nat) (o : LabelOutcome) : Node :=
  let e : OutcomeEntry := { number := number, outcome := o, serial := n.label.nextSerial }
  offerLabelled { n with label := { n.label with outcomes := roomForOutcome n ++ [e], nextSerial := e.serial + 1 } } e

/-- The entry takes an outcome; it joins the outcomes in offer. -/
def decideEntry (n : Node) (number : Nat) (o : LabelOutcome) : Node :=
  joinOutcome (setDisposition n number (.decided o)) number o

/-! ### The roll list (R170 to R172, R176, R177) -/

/-- The head label of the queue is the one in print. -/
def headInPrint (n : Node) : Bool :=
  decide (n.label.printer = .printing) && n.label.applyTimer.isNone && !n.label.abandoned

/-- R177: the label of a roll leaves the label queue; the print of the head label is abandoned. -/
def removeLabel (n : Node) (number : Nat) : Node :=
  let isHead := match n.label.queue.head? with
    | some l => decide (l.number = number)
    | none => false
  { n with label := { n.label with
      queue := n.label.queue.filter fun l => decide (l.number ≠ number),
      abandoned := n.label.abandoned || (isHead && headInPrint n) } }

/-- R177: the oldest entry leaves the list of the JOINED LABEL node. -/
def labelMakesRoom (n : Node) (c : RollContent) (rest : List RollContent) : Node :=
  let n1 := dropDisposition { n with roll := { n.roll with list := rest } } c.number
  match dispositionOf n c.number with
  | some (.waiting _) => joinOutcome n1 c.number .missing
  | some .labelling => joinOutcome (removeLabel n1 c.number) c.number .notLabelled
  | _ => n1

/-- R171, R177: room for a new entry. -/
def roomForRoll (n : Node) : Node :=
  match n.roll.list with
  | c :: rest =>
    if n.roll.list.length < 16 then n
    else if labelWorks n then labelMakesRoom n c rest
    else { n with roll := { n.roll with list := rest } }
  | [] => n

/-- R176: a new entry of the JOINED LABEL node is WAITING. -/
def awaitArrival (n : Node) (number : Nat) : Node :=
  if labelWorks n then setDisposition n number (.waiting (n.now + 1000 * (cfg n).conveyorLimit)) else n

/-- R170: a run of another roll number shares a repeat with this one. -/
def rollClashes (l : List RollContent) (p : RollContent) : Bool :=
  l.any fun c => decide (c.number ≠ p.number) && runsMeet repeatRange c.first c.count p.first p.count

/-- R170: the entry is added or overwritten. -/
def storeRoll (n : Node) (p : RollContent) : Node :=
  if inRollList n p.number then
    { n with roll := { n.roll with list := n.roll.list.map fun c => if c.number = p.number then p else c } }
  else
    let n1 := roomForRoll n
    awaitArrival { n1 with roll := { n1.roll with list := n1.roll.list ++ [p] } } p.number

/-- R170: an applied ROLL. `regrade` says that it was this REWIND's own regrade. -/
def applyRoll (n : Node) (sender : Nat) (restate regrade : Bool) (p : RollContent) : Node :=
  if !heldAs n sender .rewind then n
  else if restate ∧ n.roll.departed.any (fun d => decide (d.1 = p.number)) then
    if isRole n .rewind ∧ regrade then { n with roll := { n.roll with lateDecisions := n.roll.lateDecisions + 1 } } else n
  else if rollClashes n.roll.list p then n
  else
    let last := lastIn repeatRange p.first p.count
    let n1 := retireRun (storeRoll n p) p.first p.count
    retireHolds (if restate then n1 else rollClears n1 last) last

/-- R172: an applied LABELLED. -/
def applyLabelled (n : Node) (sender number : Nat) (o : LabelOutcome) : Node :=
  if heldAs n sender .label ∧ number ≠ 0 then
    let d := n.roll.departed ++ [(number, o)]
    dropDisposition
      { n with roll := { n.roll with departed := d.drop (d.length - 16),
                                     list := n.roll.list.filter fun c => decide (c.number ≠ number) } } number
  else n

/-! ### The label block (R182, R183) -/

/-- R182: the letter of a match type. -/
def matchLetter : MatchType → Byte
  | .straight => 83 | .halfDrop => 72 | .free => 70

/-- The pattern table entry of a roll's job, when the pattern is known (R180). -/
def rollPattern (n : Node) (job : Nat) : Option Pattern := (historyPattern n job).bind (findPattern (cfg n))

/-- R182: the grade letter; `held` is row 6 of Table 51. -/
def gradeLetter (g : Grade) (held : Bool) : Byte :=
  if held then 72
  else match g with
    | .first => 65
    | .short => 83
    | _ => 72

/-- R183: the check digit. -/
def checkDigit (roll batch pattern : List Nat) : Nat := ((roll ++ batch ++ pattern).foldl (· + ·) 0) % 10

/-- R182: the 29 characters of the block. -/
def labelBlock (n : Node) (c : RollContent) (held : Bool) : List Byte :=
  let code := (historyPattern n c.job).getD 0
  let roll := fieldDigits 6 c.number
  let batch := fieldDigits 4 c.batch
  let pat := fieldDigits 3 code
  let mt := match rollPattern n c.job with
    | some p => matchLetter p.matchType
    | none => 70
  (roll ++ batch ++ pat ++ fieldDigits 5 c.job ++ fieldDigits 5 ((c.length + 50) / 100) ++ fieldDigits 3 c.count).map digitChar ++
    [gradeLetter c.grade held, mt, digitChar (checkDigit roll batch pat)]

/-! ### The printer (R184, R185) -/

/-- R184: with the printer IDLE the block of the head label is sent, followed by a carriage return. -/
def sendBlock (n : Node) : Node :=
  match n.label.printer, n.label.queue with
  | .idle, l :: _ =>
    { n with label := { n.label with printer := .printing, seenLow := false, abandoned := false,
                                     printTimer := some 5000, sending := some (l.block ++ [13], 0) } }
  | _, _ => n

/-- R184: the end of the print: APPLY is driven; the head label leaves and its outcome joins the outcomes in offer. -/
def endPrint (n : Node) : Node :=
  let n1 : Node := { n with label := { n.label with printTimer := none, applyTimer := some 100 } }
  if n.label.abandoned then { n1 with label := { n1.label with abandoned := false } }
  else
    match n.label.queue with
    | [] => n1
    | l :: rest =>
      decideEntry
        { n1 with label := { n1.label with queue := rest, printed := n1.label.printed + 1 } } l.number
        (if l.gate = .pass then .labelled else .divertedHold)

/-- READY_FALL (R184, R185). -/
def readyFall (n : Node) : Node :=
  if n.pins.readyHigh then
    { n with pins := { n.pins with readyHigh := false },
             label := { n.label with seenLow := n.label.seenLow || decide (n.label.printer = .printing),
                                     readyTimer := none } }
  else n

/-- READY_RISE (R184, R185). -/
def readyRise (n : Node) : Node :=
  if n.pins.readyHigh then n
  else
    let n1 : Node := { n with pins := { n.pins with readyHigh := true } }
    match n.label.printer with
    | .idle => n1
    | .printing => if n.label.seenLow ∧ n.label.applyTimer.isNone then holdSettle (endPrint n1) else n1
    | .fault => { n1 with label := { n1.label with readyTimer := some 1000 } }

/-- R185: the labels of the queue take NOT_LABELLED, oldest first. -/
def failLabels : List Label → Node → Node
  | [], n => n
  | l :: ls, n => failLabels ls (decideEntry n l.number .notLabelled)

/-- PRINT_TIMER (R185). -/
def printTimer (n : Node) : Node :=
  if n.label.printTimer = some 0 then
    failLabels n.label.queue
      { n with label := { n.label with
          printTimer := none, printer := .fault, queue := [], abandoned := false,
          readyTimer := if n.pins.readyHigh then some 1000 else none } }
  else n

/-- READY_TIMER: READY has been high for 1 s in FAULT (R185). -/
def readyTimer (n : Node) : Node :=
  if n.label.readyTimer = some 0 then
    sendBlock { n with label := { n.label with readyTimer := none, printer := .idle } }
  else n

/-- APPLY_PULSE_END (R184). -/
def applyPulseEnd (n : Node) : Node :=
  if n.label.applyTimer = some 0 then
    sendBlock { n with label := { n.label with applyTimer := none, printer := .idle } }
  else n

/-! ### Arrivals (R178 to R181) -/

/-- R176: the oldest of the roll queue: the WAITING entry with the oldest roll number. -/
def oldestWaiting (n : Node) : Option RollContent :=
  (n.roll.list.filter fun c => match dispositionOf n c.number with
    | some (.waiting _) => true
    | _ => false).foldl
    (fun b c => match b with
      | none => some c
      | some x => if newer rollRange x.number c.number then some c else some x) none

/-- R180, R181: the gate is set; an arrival that diverts is counted. -/
def setGate (n : Node) (g : Gate) : Node :=
  { n with label := { n.label with gate := g, diverted := n.label.diverted + (if g = .pass then 0 else 1) } }

/-- R180, rows 5 and 6: a label is queued, and sent at once with the printer IDLE. -/
def queueLabel (n : Node) (c : RollContent) (held : Bool) : Node :=
  let g := if held then Gate.holdLane else Gate.pass
  let n1 := setDisposition (setGate n g) c.number .labelling
  sendBlock { n1 with label := { n1.label with
    queue := n1.label.queue ++ [{ number := c.number, block := labelBlock n c held, gate := g }] } }

/-- Table 51. -/
def decideArrival (n : Node) : Node :=
  match oldestWaiting n with
  | none => joinOutcome (setGate n .holdLane) 0 .unknownRoll
  | some c =>
    if n.label.printer = .fault then decideEntry (setGate n .holdLane) c.number .notLabelled
    else if c.grade = .waste then decideEntry (setGate n .wasteLane) c.number .divertedWaste
    else if 2 ≤ n.label.queue.length then decideEntry (setGate n .holdLane) c.number .notLabelled
    else queueLabel n c (decide (c.grade = .hold) || (rollPattern n c.job).isNone)

/-- ARRIVAL: the debounce timer expires with ARRIVE high (R179, R180, R187). -/
def arrival (n : Node) : Node :=
  if n.label.debounce = some 0 ∧ n.pins.arriveHigh ∧ !n.label.present then
    let n1 : Node := { n with label := { n.label with debounce := none, present := true } }
    if isJoined n then holdSettle (decideArrival n1) else setGate n1 .holdLane
  else n

/-- SENSOR_CLEAR: the debounce timer expires with ARRIVE low (R179). -/
def sensorClear (n : Node) : Node :=
  if n.label.debounce = some 0 ∧ !n.pins.arriveHigh ∧ n.label.present then
    { n with label := { n.label with debounce := none, present := false } }
  else n

/-- ARRIVE_EDGE (R179). -/
def arriveEdge (high : Bool) (n : Node) : Node :=
  let n1 : Node := { n with pins := { n.pins with arriveHigh := high } }
  if isRole n .label ∧ n.pins.arriveHigh ≠ high then
    { n1 with label := { n1.label with debounce := if high = n.label.present then none else some 50 } }
  else n1

/-- ROLL_DEADLINE: the deadline of a WAITING entry passes (R178). -/
def rollDeadline (number : Nat) (n : Node) : Node :=
  match dispositionOf n number with
  | some (.waiting d) => if d ≤ n.now then decideEntry n number .missing else n
  | _ => n

/-! ### Leaving JOINED (R187) -/

/-- R187: the composer stops. -/
def labelLeave (n : Node) : Node :=
  { n with label := { present := n.label.present, debounce := n.label.debounce,
                      printed := n.label.printed, diverted := n.label.diverted,
                      nextSerial := n.label.nextSerial } }

end Sys2Proof.Machine
end

