-- ==== Sys2Proof/Machine/Batch.lean ====
section
/-! DEFINITION. The batch list (R135, R136), the RESUME content (R37) and the restate lists (R36, R39, R137, R173). -/

namespace Sys2Proof.Machine

/-! ### The batch list -/

def batchPresent (n : Node) (code : Nat) : Bool := n.batch.list.any fun b => decide (b.code = code)

/-- R135: the open batch closes at the repeat before `r`. -/
def closeBatches (l : List BatchEntry) (r : Nat) : List BatchEntry :=
  l.map fun b => if b.state = .closed then b else { b with last := some (subIn repeatRange r 1), state := .closed }

/-- R135: the oldest CLOSED entry makes room in a full list. -/
def roomForBatch (l : List BatchEntry) : List BatchEntry :=
  if l.length < 8 then l else (removeFirst (fun b => decide (b.state = .closed)) l).getD l

/-- R135: present records at or after `r` take the code. -/
def recodeRecords (n : Node) (r code : Nat) : Node :=
  let f := fun (x : RepeatRecord) => if repeatAtOrAfter x.number r then { x with batch := code } else x
  { n with track := { n.track with table := n.track.table.map f } }

/-- R135: the OK repeats of the history at or after `r` that no step watch holds, oldest first, up to 16. -/
def seedRepeats (u : BatchUnit) (r : Nat) : List Graded :=
  let heldNumbers : List Nat := match u.watch with
    | some w => w.held.map (·.number)
    | none => []
  ((okRepeats u.history).filter fun g => repeatAtOrAfter g.number r && !heldNumbers.contains g.number).take 16

/-- R130, R135: the own batch is set and its forming is seeded. -/
def setOwnBatch (n : Node) (p : BatchPayload) : Node :=
  let b : OwnBatch := { code := p.code, first := p.first, reason := p.reason, phase := .forming, sums := zeroTriple,
                        count := 0, reference := zeroTriple, tolerance := zeroTriple }
  (seedRepeats n.batch p.first).foldl
    (fun m g => match g.mean with
      | some t => formMean m t
      | none => m)
    { n with batch := { n.batch with own := some b } }

/-- R135: a new batch. -/
def newBatch (n : Node) (own : Bool) (p : BatchPayload) : Node :=
  let l := closeBatches (roomForBatch n.batch.list) p.first
  let n1 := recodeRecords n p.first p.code
  let n2 : Node := { n1 with batch := { n1.batch with
      list := l ++ [{ code := p.code, first := p.first, last := none, reference := none, state := .forming }] } }
  rollBatch (if own ∧ isRole n .shade then setOwnBatch n2 p else n2) p.code p.first

/-- R135: the carried first repeat is not newer than that of the newest entry. -/
def batchTooOld (n : Node) (first : Nat) : Bool :=
  match n.batch.list.getLast? with
  | some b => !repeatNewer first b.first
  | none => false

/-- R135: an applied BATCH OPENED. -/
def applyBatchOpened (n : Node) (sender : Nat) (restate own : Bool) (p : BatchPayload) : Node :=
  if !heldAs n sender .shade then n
  else if batchPresent n p.code then
    let f := fun (b : BatchEntry) => if b.code = p.code then { b with first := p.first } else b
    if restate then { n with batch := { n.batch with list := n.batch.list.map f } } else n
  else if batchTooOld n p.first then n
  else newBatch n own p

/-- R136: an applied BATCH FIXED. -/
def applyBatchFixed (n : Node) (sender : Nat) (p : BatchPayload) (t : Triple) : Node :=
  let f := fun (b : BatchEntry) =>
    if b.code = p.code then
      { b with reference := some t, state := if b.state = .forming then .fixed else b.state }
    else b
  if heldAs n sender .shade then { n with batch := { n.batch with list := n.batch.list.map f } } else n

/-! ### RESUME (R36, R37) -/

/-- R37: the content of a RESUME, taken at the offer. -/
def resumeContent (n : Node) : ResumePayload :=
  { role := (cfg n).role, slot := (cfg n).colourSlot, newestRepeat := n.link.newestRepeat.getD 0,
    newestRoll := n.link.newestRoll.getD 0, newestBatch := n.link.newestBatch.getD 0, job := n.job.given }

def offerResume (n : Node) : Node := offerAgain n (.resume (resumeContent n)) false .resume .resume

/-! ### Restates (R39) -/

/-- R137: the telegram of a batch restate; none when the batch is the own batch no more, though its entry may still stand in the
list, closed by a newer own opening: the model's choice (log entry 63). -/
def batchRestate (n : Node) (code : Nat) (fixed : Bool) : Option Telegram :=
  match n.batch.own, n.batch.list.find? fun b => decide (b.code = code) with
  | some o, some b =>
    let p : BatchPayload := { code := code, first := b.first, reason := o.reason }
    if o.code ≠ code then none
    else if fixed then b.reference.map fun t => .batchFixed p t
    else some (.batchOpened p)
  | _, _ => none

/-- The first item of a list that gives a telegram, and the items behind it. -/
def firstItem {α : Type} (f : α → Option Telegram) : List α → Option Telegram × List α
  | [] => (none, [])
  | x :: xs =>
    match f x with
    | some t => (some t, xs)
    | none => firstItem f xs

/-- R39: the next batch restate, unless one is in offer. -/
def nextRestateBatch (n : Node) : Node :=
  if n.link.restBatch.busy then n
  else
    let r := firstItem (fun (i : Nat × Bool) => batchRestate n i.1 i.2) n.link.restBatch.items
    let n1 : Node := { n with link := { n.link with restBatch := { items := r.2, busy := r.1.isSome } } }
    match r.1 with
    | none => n1
    | some t => offerAgain n1 t true .restateBatch .restateBatch

/-- R39, R149: the restate of the own open hold. -/
def nextRestateHold (n : Node) : Node :=
  if n.link.restHold.busy ∨ !n.link.restHold.todo then n
  else
    match n.hold.own with
    | none => { n with link := { n.link with restHold := { todo := false, busy := false } } }
    | some o =>
      offerAgain { n with link := { n.link with restHold := { todo := false, busy := true } } }
        (.holdSet o.first o.causes) true .restateHold .restateHold

/-- R39, R173: the next roll restate. -/
def nextRestateRoll (n : Node) : Node :=
  if n.link.restRoll.busy then n
  else
    let r := firstItem (fun (x : Nat) => (n.roll.list.find? fun c => decide (c.number = x)).map Telegram.roll) n.link.restRoll.items
    let n1 : Node := { n with link := { n.link with restRoll := { items := r.2, busy := r.1.isSome } } }
    match r.1 with
    | none => n1
    | some t => offerAgain n1 t true .restateRoll .restateRoll

/-- A restate has ended: the block's next one is offered. -/
def endRestateBatch (n : Node) : Node :=
  nextRestateBatch { n with link := { n.link with restBatch := { n.link.restBatch with busy := false } } }

def endRestateHold (n : Node) : Node :=
  nextRestateHold { n with link := { n.link with restHold := { n.link.restHold with busy := false } } }

def endRestateRoll (n : Node) : Node :=
  nextRestateRoll { n with link := { n.link with restRoll := { n.link.restRoll with busy := false } } }

/-- R137: the restate list of the SHADE node; it restates nothing while an own batch is in offer. -/
def batchItems (n : Node) : List (Nat × Bool) :=
  match n.batch.own, n.batch.list.getLast? with
  | some o, some b =>
    if n.batch.inOffer ≠ 0 ∨ b.state = .closed ∨ b.code ≠ o.code then []
    else if b.state = .fixed then [(b.code, false), (b.code, true)]
    else [(b.code, false)]
  | _, _ => []

/-- R36: a JOINED node makes its restate lists from its current records and starts them. -/
def startRestates (n : Node) : Node :=
  if !isJoined n then n
  else
    let n1 : Node := { n with link := { n.link with
        restBatch := { n.link.restBatch with items := if isRole n .shade then batchItems n else [] },
        restHold := { n.link.restHold with todo := n.hold.own.isSome },
        restRoll := { n.link.restRoll with items := if isRole n .rewind then n.roll.list.map (·.number) else [] } } }
    nextRestateRoll (nextRestateHold (nextRestateBatch n1))

end Sys2Proof.Machine
end

