-- ==== Sys2Proof/Machine/Peers.lean ====
section
/-! DEFINITION. The node states (Table 57): leaving JOINED, benching (R191, R194), muting (R25, R27), DOWN (R32), the
Peer Table (R192 to R195), supply and resets (R190, R200), rejoin (R28). -/

namespace Sys2Proof.Machine

/-! ### Leaving JOINED -/

/-- R39: the restate lists are abandoned; of the refused offers only those the new state sends remain. -/
def linkLeave (n : Node) : Node :=
  { n with link := { n.link with
      restBatch := {}, restHold := {}, restRoll := {},
      refusedOffers := n.link.refusedOffers.filter fun r => decide (n.st = .benched ∧ r = .resume) } }

/-- What the blocks do when the node has left JOINED: the issuer stops (R48), the KEY's offers are dropped (R70, R72), the
loop opens (R83), the nip opens (R106), the SHADE and REWIND owners and the composer return to their reset values (R138,
R175, R187), and so does the Hold Unit (R143). -/
def blocksLeave (n : Node) : Node :=
  let n1 := nipLeave (loopToOpen (jobLeave n))
  let n2 := if isRole n .shade then resetShadeUnit n1 else n1
  let n3 := if isRole n .rewind then rollLeave n2 else n2
  let n4 := if isRole n .label then labelLeave n3 else n3
  linkLeave (if holdRole n then resetHoldUnit n4 else n4)

/-- The node state becomes `st`; a node that was JOINED leaves JOINED. -/
def leaveTo (n : Node) (st : NodeState) : Node :=
  let n1 := setState n st
  if n.st = .joined ∧ st ≠ .joined then blocksLeave n1 else n1

/-! ### Muting and DOWN -/

def queuedRequest (q : List QEntry) : Bool := q.any fun e => decide (e.offerBy = .request)

/-- R25, R27: the transmit queue is emptied; a REQUEST that leaves it ends (R198). -/
def emptyQueue (n : Node) : Node :=
  let n1 : Node := { n with link := { n.link with queue := [], attempts := 0, sending := false, stopped := false, refusedOffers := [] } }
  if queuedRequest n.link.queue then endRequest n1 .refused else n1

/-- R32, Table 13: the node becomes DOWN and releases its line pins, a void or a clash mark it was driving too; its queue is
kept (log entry 8). -/
def goDown (n : Node) : Node :=
  let n1 := leaveTo n .down
  { n1 with link := { n1.link with sending := false, stopped := false, drove := false, clashMark := 0 } }

/-- R24, R25, R27: the node enters MUTED; with DOWN queued it becomes DOWN at once (R32), and keeps the cause of the muting
there (log entry 8). -/
def mute (n : Node) (cause : MuteCause) : Node :=
  let down := downQueued n
  let n1 := emptyQueue n
  if down then goDown { n1 with muteCause := some cause }
  else
    let n2 := leaveTo n1 .muted
    let n3 : Node := { n2 with muteCause := some cause, link := { n2.link with goodRun := 0, sendElapsed := none } }
    if n.st = .muted ∧ n.muteCause ≠ some cause then attend n3 attNode else n3

/-! ### The Peer Table -/

/-- R195: a completed frame from a station: its entry is heard. -/
def hearPeer (p : Peer) : Peer :=
  match p.state with
  | .down => { p with silence := 0 }
  | .benched => { p with silence := 0 }
  | _ => { p with state := .present, silence := 0 }

/-- R195: the repeat number that raises the last repeat heard; a REGISTER (kind 7) or SHADE (kind 8) with an undefined code
carries one as well (log entry 45). -/
def carriedRepeat : Telegram → Option Nat
  | .repeat_ p => some p.number
  | .register p => some p.number
  | .shade p => some p.number
  | .undefined p => if p.kind = 7 ∨ p.kind = 8 then some p.number else none
  | _ => none

def raiseHeard (p : Peer) (x : Option Nat) : Peer :=
  match x with
  | none => p
  | some x =>
    if x ≠ 0 ∧ (p.lastRepeat = 0 ∨ repeatNewer x p.lastRepeat) then { p with lastRepeat := x } else p

/-- R195: a completed frame from another station; a JOIN replaces the entry from what it was (R193). -/
def peerFrame (n : Node) (sender : Nat) (t : Telegram) : Node :=
  if sender = (cfg n).station then n
  else
    match t with
    | .join _ => n
    | _ => setPeer n sender (raiseHeard (hearPeer (peerAt n sender)) (carriedRepeat t))

/-- R22: at benching only PRESENT and RESUME stay queued; the frame that is being sent stays until its attempt ends. -/
def benchQueue (sending : Bool) (q : List QEntry) : List QEntry :=
  let keep := fun (e : QEntry) => benchedKind e.telegram
  match q with
  | [] => []
  | h :: rest => if sending || keep h then h :: rest.filter keep else rest.filter keep

/-- R191, R194: this node is benched. -/
def benchSelf (n : Node) : Node :=
  let me := (cfg n).station
  let n1 := closeHoldOf (leaveTo { n with benchMark := true } .benched) me
  let n2 := setPeer n1 me { peerAt n1 me with state := .benched }
  let kept := benchQueue n2.link.sending n2.link.queue
  let n3 : Node := { n2 with link := { n2.link with
      queue := kept, attempts := if kept.head? = n2.link.queue.head? then n2.link.attempts else 0 } }
  if queuedRequest n2.link.queue ∧ !queuedRequest kept then endRequest n3 .refused else n3

/-- R194: the station is benched. -/
def benchStation (n : Node) (s : Nat) : Node :=
  if s = (cfg n).station then (if n.st = .joined then benchSelf n else n)
  else closeHoldOf (setPeer n s { peerAt n s with state := .benched }) s

/-- R194: two entries are in conflict. -/
def rolesConflict (a b : Role × Nat) : Bool :=
  decide (a.1 = b.1) && (decide (a.1 ≠ .print) || decide (a.2 = b.2))

/-- R194: station `k` is in conflict with `j`. -/
def conflictWith (n : Node) (j k : Nat) : Bool :=
  let p := peerAt n k
  decide (k ≠ j) && p.learnt && decide (p.state ≠ .benched) &&
    (match (peerAt n j).role, p.role with
     | some a, some b => rolesConflict a b
     | _, _ => false)

def stations : List Nat :=
  [1, 2, 3, 4, 5, 6, 7, 8, 9, 10, 11, 12, 13, 14, 15, 16] ++ [17, 18, 19, 20, 21, 22, 23, 24, 25, 26, 27, 28, 29, 30, 31]

/-- R194: a role was recorded for station `j`; of each two in conflict the higher number is benched. -/
def checkConflict (n : Node) (j : Nat) : Node :=
  (stations.filter (conflictWith n j)).foldl (fun m k => benchStation m (max j k)) n

/-- R192: the own entry, written by the own JOIN. -/
def writeOwnEntry (n : Node) (cause : ResetCause) : Node :=
  setPeer n (cfg n).station
    { state := if n.st = .benched then .benched else .present, role := some ((cfg n).role, (cfg n).colourSlot),
      learnt := true, cause := some cause, signature := some n.signature }

/-- R193: the entry of a station that joins. -/
def joinedPeer (p : Peer) (q : JoinPayload) : Peer :=
  { state := .present, role := some (q.role, q.slot), learnt := true, cause := some q.cause,
    restarts := if p.state ≠ .absent ∧ q.cause ≠ .rejoin then min 255 (p.restarts + 1) else p.restarts,
    silence := 0, signature := some q.signature, lastRepeat := 0 }

/-- R35, R36, R153, R193: an applied JOIN. -/
def applyJoin (n : Node) (sender : Nat) (p : JoinPayload) : Node :=
  if sender = (cfg n).station then checkConflict (writeOwnEntry (closeHoldOf n sender) p.cause) sender
  else
    let n1 := setPeer n sender (joinedPeer (peerAt n sender) p)
    startRestates (offerResume (checkConflict (closeHoldOf n1 sender) sender))

/-- R38: what a RESUME does in the node's own resume window. -/
def resumeNumbers (n : Node) (p : ResumePayload) : Node :=
  let l := n.link
  let n1 : Node := { n with link := { l with
      newestRepeat := raiseNumber repeatRange l.newestRepeat p.newestRepeat,
      newestRoll := raiseNumber rollRange l.newestRoll p.newestRoll,
      newestBatch := raiseNumber batchRange l.newestBatch p.newestBatch,
      newestJob := match p.job with
        | some j => raiseNumber jobRange l.newestJob j.number
        | none => l.newestJob } }
  match p.job with
  | some j => if newerThanGiven n1 j.number then giveJob n1 j else n1
  | none => n1

/-- R193: the sender's entry takes the carried role and colour slot and the learnt mark. -/
def recordRole (n : Node) (sender : Nat) (role : Role) (slot : Nat) : Node :=
  if sender = (cfg n).station then n
  else checkConflict (setPeer n sender { peerAt n sender with role := some (role, slot), learnt := true }) sender

/-- R38, R193: an applied RESUME. -/
def applyResume (n : Node) (sender : Nat) (p : ResumePayload) : Node :=
  let n1 := recordRole n sender p.role p.slot
  if n.link.resume.isSome then resumeNumbers n1 p else n1

/-- R195: an applied DOWN. -/
def applyDown (n : Node) (sender : Nat) (cause : ResetCause) : Node :=
  if sender = (cfg n).station then n
  else setPeer n sender { peerAt n sender with state := .down, cause := some cause }

/-- PEER_SILENCE_W (R195). -/
def peerSilenceW (s : Nat) (n : Node) : Node :=
  let p := peerAt n s
  if appliesFrames n ∧ s ≠ (cfg n).station ∧ p.state = .present ∧ (cfg n).silence ≤ p.silence then
    setPeer n s { p with state := .quiet }
  else n

/-- PEER_SILENCE_2W (R195). -/
def peerSilence2W (s : Nat) (n : Node) : Node :=
  let p := peerAt n s
  if appliesFrames n ∧ s ≠ (cfg n).station ∧ (p.state = .present ∨ p.state = .quiet) ∧ 2 * (cfg n).silence ≤ p.silence then
    holdSettle (setPeer n s { p with state := .lost })
  else n

/-! ### Supply and resets (R32, R190) -/

/-- R32: the queue with DOWN directly behind the frame in flight. -/
def placeDown (q : List QEntry) : List QEntry :=
  let e : QEntry := { telegram := .down .supply, restate := false, offerBy := .plain }
  match q with
  | [] => [e]
  | h :: rest => h :: e :: rest

/-- R32: DOWN is offered; in a full queue the oldest ROUTINE entry behind the head makes room, or else the tail. An outcome whose
LABELLED is that tail stays among the outcomes in offer: the model's choice (log entry 65). -/
def offerDown (n : Node) : Node :=
  let q := n.link.queue
  if q.length < 16 then { n with link := { n.link with queue := placeDown q } }
  else
    match evictRoutine q with
    | some r => { n with link := { n.link with queue := placeDown r, discarded := n.link.discarded + 1 } }
    | none =>
      let n1 : Node := { n with link := { n.link with queue := placeDown q.dropLast, dropped := n.link.dropped + 1 } }
      if queuedRequest q ∧ !queuedRequest q.dropLast then endRequest n1 .refused else n1

/-- R32: the supply warning reaches the node. -/
def warnSupply (n : Node) : Node :=
  match n.st with
  | .down => n
  | .joined => if downQueued n then n else offerDown n
  | _ => goDown n

/-- SUPPLY_WARNING: SUPWARN becomes active. While RESETN is low the warning waits for the end of the reset (R32). -/
def supplyWarning (n : Node) : Node :=
  if n.pins.supwarn then n
  else
    let n1 : Node := { n with pins := { n.pins with supwarn := true, supwarnQuiet := 0 } }
    if n.pins.resetLow then n1 else warnSupply n1

/-- SUPWARN_INACTIVE: SUPWARN becomes inactive, and the 100 ms of R190 start. -/
def supwarnInactive (n : Node) : Node := { n with pins := { n.pins with supwarn := false, supwarnQuiet := 0 } }

/-- R190, R200: every block at its reset values, LOADING, with this cause. The pins, the free values and the time base go
on. -/
def resetNode (n : Node) (cause : ResetCause) : Node :=
  { st := .loading, resetCause := cause, pins := n.pins, now := n.now, freeIndex := n.freeIndex }

/-- R32: SUPWARN that is active when a reset ends is a supply warning at that moment. -/
def endReset (n : Node) : Node := if n.pins.supwarn then warnSupply n else n

/-- POWER_RESET (R190). -/
def powerReset (n : Node) : Node :=
  let n1 := resetNode n .power
  if n1.pins.resetLow then n1 else endReset n1

/-- PIN_RESET: RESETN falls and holds the node in reset; it rises and the reset ends (R190). -/
def pinReset (low : Bool) (n : Node) : Node :=
  if low then resetNode { n with pins := { n.pins with resetLow := true } } .pin
  else if n.pins.resetLow then endReset { n with pins := { n.pins with resetLow := false } }
  else n

/-- SUPPLY_RECOVERY: SUPWARN has been inactive for 100 ms in DOWN (R190). -/
def supplyRecovery (n : Node) : Node :=
  if n.st = .down ∧ !n.pins.supwarn ∧ 100 ≤ n.pins.supwarnQuiet ∧ !n.pins.resetLow then resetNode n .supply else n

/-! ### Rejoin (R28, and the rejoin values of every block) -/

/-- LISTENING is entered: the listen timer runs for 20 ms (R35). -/
def enterListening (n : Node) : Node :=
  let n1 := setState n .listening
  { n1 with link := { n1.link with listen := some 20, heardEnd := false } }

/-- R41, R64, R102, R154, R175, R188, R200 and their like: the rejoin values of the blocks. -/
def rejoinBlocks (n : Node) : Node :=
  { n with
    muteCause := none, resetCause := .rejoin,
    travel := { n.travel with lastBoundary := none, lastSpeed := none, speedStep := false },
    marks := { stray := n.marks.stray },
    trig := { cut := n.trig.cut },
    track := { missed := n.track.missed, unclaimed := n.track.unclaimed, evictions := n.track.evictions,
               spliceOverflows := n.track.spliceOverflows },
    job := {},
    loop := { tail := trainTail (cfg n) n.loop.train },
    nip := {}, shade := {}, batch := {}, hold := {},
    roll := { planRefusals := n.roll.planRefusals, cutsMoved := n.roll.cutsMoved, lateDecisions := n.roll.lateDecisions },
    label := { present := n.label.present, debounce := n.label.debounce, printed := n.label.printed, diverted := n.label.diverted,
               nextSerial := n.label.nextSerial },
    link := { w := n.link.w, completed := n.link.completed, raised := n.link.raised, seenVoids := n.link.seenVoids,
              dropped := n.link.dropped, discarded := n.link.discarded },
    peers := resetPeers,
    port := { refusals := n.port.refusals, out := n.port.out } }

/-- R28, R200: the node rejoins: the blocks at their rejoin values, LISTENING, and the changes of state are recorded. -/
def rejoinNode (n : Node) : Node :=
  let n1 := enterListening (rejoinBlocks n)
  if n.hold.state = .clear then n1 else attend n1 attHold

end Sys2Proof.Machine
end

