-- ==== Sys2Proof/Machine/Link.lean ====
section
/-! DEFINITION. The Link Controller (R19 to R41): slots, frame ends and the ends of the node's own attempts, completion and
application, joining. -/

namespace Sys2Proof.Machine

/-! ### Application (R34, R37) -/

/-- R37: the newest-heard numbers that a telegram raises. -/
def raiseNumbers (l : Link) : Telegram → Link
  | .repeat_ p => { l with newestRepeat := raiseNumber repeatRange l.newestRepeat p.number }
  | .roll p => { l with newestRoll := raiseNumber rollRange l.newestRoll p.number }
  | .batchOpened p => { l with newestBatch := raiseNumber batchRange l.newestBatch p.code }
  | .jobTaken p => { l with newestJob := raiseNumber jobRange l.newestJob p.number }
  | .jobRefused p => { l with newestJob := raiseNumber jobRange l.newestJob p.number }
  | _ => l

/-- R67: an applied JOB TAKEN. -/
def applyJobTaken (n : Node) (sender : Nat) (p : JobPayload) : Node :=
  let n1 :=
    if heldAs n sender .key ∧ newerThanGiven n p.number then
      giveJob n { number := p.number, pattern := p.pattern, first := p.first }
    else n
  answerJob n1 p.requester (.taken p.number)

/-- R68: an applied JOB REFUSED. -/
def applyJobRefused (n : Node) (p : JobPayload) : Node := answerJob n p.requester .refused

/-- An applied REQUEST, by its kind (R70, R132, R142, R148, R163). -/
def applyRequest (n : Node) (sender : Nat) (kind : RequestKind) (arg : Nat) : Node :=
  match kind with
  | .newJob => newJobRequest n { pattern := arg, station := sender }
  | .closeBatch => closeBatchRequest n
  | .closeRoll => closeRollRequest n
  | .holdOn => operatorRequest n arg true
  | .clearHold => operatorRequest n arg false

/-- R34, Table 14: the telegram is handed to the blocks that keep its records. -/
def handOver (n : Node) (o : Origin) (own regrade : Bool) : Telegram → Node
  | .join p => applyJoin n o.sender p
  | .resume p => applyResume n o.sender p
  | .present => n
  | .down c => applyDown n o.sender c
  | .request k a => applyRequest n o.sender k a
  | .jobTaken p => applyJobTaken n o.sender p
  | .jobRefused p => applyJobRefused n p
  | .repeat_ p => appendRepeat n o.sender p
  | .register p => applyRegister n o.sender p
  | .shade p => applyShade n o.sender p
  | .batchOpened p => applyBatchOpened n o.sender o.restate own p
  | .batchFixed p t => applyBatchFixed n o.sender p t
  | .holdSet x c => applyHoldSet n o.sender x c
  | .holdClear x _ => applyHoldClear n o.sender x
  | .roll p => applyRoll n o.sender o.restate regrade p
  | .labelled x out => applyLabelled n o.sender x out
  | .undefined _ => n

/-- R34: a completed frame is applied by a node that is JOINED or BENCHED: the peer is heard, the numbers are raised, the
blocks take the telegram. -/
def applyFrame (n : Node) (o : Origin) (own regrade : Bool) (t : Telegram) : Node :=
  let n1 := peerFrame n o.sender t
  handOver { n1 with link := raiseNumbers n1.link t } o own regrade t

/-! ### The ends of the node's own offers -/

/-- R186: the outcome is still followed. -/
def followed (n : Node) (o : OutcomeEntry) : Bool := n.label.outcomes.any fun x => decide (x.serial = o.serial)

/-- R149: the offer of a HOLD has ended. -/
def endHoldOffer (n : Node) : Node := { n with hold := { n.hold with inOffer := none } }

/-- R149: two statements are the same. A CLEAR is a CLEAR with a repeat: the causes it carries are no part of it. -/
def sameStatement : Statement → Statement → Bool
  | .set x c, .set y d => decide (x = y) && decide (c = d)
  | .clear x _, .clear y _ => decide (x = y)
  | _, _ => false

/-- R149: the wanted statement is the last completed one, or there is none of either. -/
def wantedDone (n : Node) : Bool :=
  match n.hold.wanted, n.hold.lastDone with
  | none, none => true
  | some a, some b => sameStatement a b
  | _, _ => false

/-- R149: a HOLD completed; the wanted statement is offered when it differs. -/
def completeHold (n : Node) : Node :=
  let n1 := endHoldOffer { n with hold := { n.hold with lastDone := n.hold.inOffer } }
  if wantedDone n1 ∨ !holdWorks n1 then n1 else holdOfferWanted n1

/-- The block whose telegram completed. -/
def offerCompleted (n : Node) (e : QEntry) : Node :=
  match e.offerBy with
  | .request => endRequest n .sent
  | .job => takeHeld { n with job := { n.job with inOffer := none } }
  | .opened => { n with batch := { n.batch with inOffer := n.batch.inOffer - 1 } }
  | .hold => completeHold n
  | .restateBatch => endRestateBatch n
  | .restateHold => endRestateHold n
  | .restateRoll => endRestateRoll n
  | .roll =>
    (match e.telegram with
     | .roll p => { n with roll := { n.roll with awaiting := n.roll.awaiting.filter fun c => decide (c.number ≠ p.number) } }
     | _ => n)
  | .labelled serial => dropOutcome n serial
  | _ => n

/-- R128: a lost OPENED is offered again, or abandoned when another opening has been offered since. -/
def reofferOpened (n : Node) (p : BatchPayload) : Node :=
  if n.batch.lastOpened = some p.code then offerOpened n p
  else { n with batch := { n.batch with inOffer := n.batch.inOffer - 1 } }

/-- R130: a lost FIXED is offered again, or abandoned when an opening has been offered since: `after` is the newest opening at
its offer. An opening that was lost and is offered again is none offered since (log entry 62). -/
def reofferFixed (n : Node) (p : BatchPayload) (t : Triple) (after : Option Nat) : Node :=
  if n.batch.lastOpened = after then offerFixed n p t else n

/-- R186: a lost LABELLED is offered again while its outcome is followed; one for roll number 0 leaves the list. -/
def reofferLabelled (n : Node) (o : OutcomeEntry) : Node :=
  if o.number = 0 then dropOutcome n o.serial else if followed n o then offerLabelled n o else n

/-- R149: a HOLD was dropped: the LINK_FAULT it raised is taken, and the wanted statement is offered at once. -/
def dropHold (n : Node) : Node :=
  let n1 := endHoldOffer n
  if holdWorks n1 then holdOfferWanted (holdAbsorb n1) else n1

/-- The block whose telegram was dropped after three ended attempts. -/
def offerDropped (n : Node) (e : QEntry) : Node :=
  match e.offerBy, e.telegram with
  | .resume, _ => offerResume n
  | .request, _ => endRequest n .refused
  | .job, _ => offerJob n
  | .opened, .batchOpened p => reofferOpened n p
  | .fixed after, .batchFixed p t => reofferFixed n p t after
  | .hold, _ => dropHold n
  | .restateBatch, _ => endRestateBatch n
  | .restateHold, _ => endRestateHold n
  | .restateRoll, _ => endRestateRoll n
  | .roll, .roll p => offerRoll n p.number
  | .regrade ch, .roll p => offerRegrade n p.number ch
  | .labelled serial, .labelled x o => reofferLabelled n { number := x, outcome := o, serial := serial }
  | _, _ => n

/-- R31: an offer refused at a full queue is made again at the completion of an own frame. -/
def reoffer (n : Node) : Reoffer → Node
  | .resume => offerResume n
  | .job => offerJob n
  | .opened p => reofferOpened n p
  | .fixed p t after => reofferFixed n p t after
  | .hold =>
    let n1 : Node := { n with hold := { n.hold with waiting := false } }
    if holdWorks n1 then holdOfferWanted n1 else n1
  | .restateBatch => endRestateBatch n
  | .restateHold => endRestateHold n
  | .restateRoll => endRestateRoll n
  | .roll x => offerRoll n x
  | .regrade x ch => offerRegrade n x ch
  | .labelled o => reofferLabelled n o

/-! ### Joining (R35) -/

/-- R35: JOIN is offered and the node is JOINING. -/
def offerJoin (n : Node) : Node :=
  let n1 := setState n .joining
  (enqueue n1 (.join { role := (cfg n).role, slot := (cfg n).colourSlot, cause := n.resetCause, signature := n.signature })
    false .join).1

/-- R35: the first frame end after the 20 ms lets a LISTENING node offer JOIN. -/
def listenEnd (n : Node) : Node := if n.st = .listening ∧ n.link.listen = none then offerJoin n else n

/-- LISTEN_TIMER (R35). -/
def listenTimer (n : Node) : Node :=
  if n.st = .listening ∧ n.link.listen = some 0 then
    let n1 : Node := { n with link := { n.link with listen := none } }
    if n1.link.heardEnd then offerJoin n1 else n1
  else n

/-- LISTEN_SILENCE: the line has been silent for W and no frame end was heard (R35). -/
def listenSilence (n : Node) : Node :=
  if n.st = .listening ∧ n.link.listen = none ∧ !n.link.heardEnd ∧ (cfg n).silence ≤ n.link.silentMs then offerJoin n
  else n

/-- R35, R38, R191: the own JOIN completes: JOINED, or BENCHED with the bench mark; the resume window opens and the send
timer starts. -/
def joinCompletes (n : Node) : Node :=
  let n1 := setState n (if n.benchMark then .benched else .joined)
  { n1 with link := { n1.link with resume := some 50, sendElapsed := some 0 } }

/-- RESUME_WINDOW_CLOSE: the owners start their numbering (R38), a hold is set for a factor set that is not empty (R143), and
the held requests are taken (R38, R70). -/
def resumeWindowClose (n : Node) : Node :=
  if n.link.resume = some 0 then
    let n1 : Node := { n with link := { n.link with resume := none } }
    if isJoined n1 then holdSettle (takeHeld (holdStart (rollStart (batchStart (keyStart n1))))) else n1
  else n

/-! ### The ends of the node's own attempts (R26, R32) -/

/-- The head entry leaves the queue. -/
def dequeue (n : Node) : Node := { n with link := { n.link with queue := n.link.queue.drop 1, attempts := 0 } }

def countDropped (n : Node) : Node := { n with link := { n.link with dropped := n.link.dropped + 1 } }

def isDown : Telegram → Bool
  | .down _ => true
  | _ => false

def isJoin : Telegram → Bool
  | .join _ => true
  | _ => false

/-- R26, R30, R32, R35: the telegram is dropped at its third ended attempt. -/
def dropTelegram (n : Node) (e : QEntry) : Node :=
  let n1 := countDropped (dequeue n)
  if isDown e.telegram then goDown n1
  else if isJoin e.telegram then enterListening n1
  else if e.telegram.routine then n1
  else offerDropped (raiseLinkFault n1) e

/-- R26: the attempt of the frame in flight ends voided or cut short. -/
def attemptEnds (n : Node) : Node :=
  let n1 : Node := { n with link := { n.link with sending := false, stopped := false, ownRun := 0 } }
  match n.link.queue with
  | [] => n1
  | e :: _ =>
    if n.st = .benched ∧ !benchedKind e.telegram then
      (if e.offerBy = .request then endRequest (dequeue n1) .refused else dequeue n1)
    else if downQueued n ∧ !isDown e.telegram then offerDropped (countDropped (dequeue n1)) e
    else if n.link.attempts + 1 < 3 then { n1 with link := { n1.link with attempts := n.link.attempts + 1 } }
    else dropTelegram n1 e

/-! ### Frame ends (R20, R21, R27, R28) -/

/-- R27: the void run at the end of another sender's frame. -/
def countVoidRun (n : Node) : Node :=
  if appliesFrames n then
    { n with link := { n.link with voidRun := if n.link.drove then n.link.voidRun + 1 else 0 } }
  else n

/-- R27: at a void run of 16 the node enters MUTED with cause VOIDING. -/
def muteVoiding (n : Node) : Node := if appliesFrames n ∧ 16 ≤ n.link.voidRun then mute n .voiding else n

/-- The marks of the frame on the line are cleared at its end. -/
def clearFrame (n : Node) : Node := { n with link := { n.link with faulty := false, drove := false } }

/-- A frame end is heard: slot counting stops until the next idle gap, and the line is not silent. -/
def hearEnd (n : Node) : Node := { n with link := { n.link with slot := none, heardEnd := true, silentMs := 0 } }

/-- R40: a frame that ends voided or cut short. -/
def countSeen (n : Node) : Node := { n with link := { n.link with seenVoids := n.link.seenVoids + 1 } }

/-- R28: any frame end that is not a good frame returns the good-frame run to 0. -/
def badEnd (n : Node) : Node := { n with link := { n.link with goodRun := 0 } }

/-- A frame that ends voided or cut short, with what follows it in every node state. `mine` says it was the node's own. -/
def failedEnd (n : Node) (mine : Bool) : Node :=
  let n1 := badEnd (countSeen (hearEnd n))
  let n2 := if mine then attemptEnds n1 else muteVoiding (countVoidRun n1)
  holdSettle (clearFrame (listenEnd n2))

/-- FRAME_VOIDED: a frame with this sender in its header ends voided (R20, R21, R26, R27). -/
def frameVoided (sender : Nat) (n : Node) : Node :=
  if tracksW n then
    failedEnd { n with link := { n.link with w := sender } } (n.link.sending && decide (sender = (cfg n).station))
  else n

/-- FRAME_CUT_SHORT: a frame is cut short; w is unchanged (R20, R21, R24, R26). -/
def frameCutShort (n : Node) : Node := if tracksW n then failedEnd n n.link.sending else n

/-- FRAME_CHECK: the node checks a frame of another sender; JOINED or BENCHED it drives the void for a faulty one (R23). -/
def frameCheck (bits : List Bool) (n : Node) : Node :=
  if !tracksW n ∨ n.link.sending then n
  else if frameGood bits then { n with link := { n.link with slot := none, silentMs := 0 } }
  else if appliesFrames n then
    { n with link := { n.link with slot := none, silentMs := 0, faulty := true, drove := true, raised := n.link.raised + 1 } }
  else { n with link := { n.link with slot := none, silentMs := 0, faulty := true } }

/-- R24: the node drives the 20 bit times of a clash mark; they are over within the next millisecond (log entry 49). -/
def driveClashMark (n : Node) : Node := { n with link := { n.link with clashMark := 20 } }

/-- SENDER_BIT_DIFFERENCE (R24): inside the header the node stops its frame, drives a clash mark and enters MUTED; elsewhere
it stops driving. -/
def senderBitDifference (inHeader : Bool) (n : Node) : Node :=
  if n.link.sending ∧ !n.link.stopped then
    if inHeader then driveClashMark (mute n .clash) else { n with link := { n.link with stopped := true } }
  else n

/-- CLASH_MARK_DETECTED: the line stayed DOMINANT for 12 bit times after the sender stopped (R24). -/
def clashMarkDetected (n : Node) : Node := if n.link.sending ∧ n.link.stopped then mute n .clash else n

/-- LINE_STUCK (R29): the frame on the line is treated as cut short; the own queue and its attempt count are kept. -/
def lineStuck (frameOnLine : Bool) (n : Node) : Node :=
  if tracksW n ∧ !n.link.stuck then
    let mine := n.link.sending
    let n1 := raiseLinkFault { n with link := { n.link with stuck := true, slot := none, sending := false, stopped := false } }
    let n2 :=
      if frameOnLine then
        let m := badEnd (countSeen (hearEnd n1))
        clearFrame (listenEnd (if mine then m else muteVoiding (countVoidRun m)))
      else n1
    holdSettle n2
  else n

/-- R22, R169: the entry is still to be sent: it is no ROLL of an abandoned piece, and a BENCHED node sends its kind. -/
def staysQueued (n : Node) (e : QEntry) : Bool :=
  !abandonedRoll n.roll.awaiting e && (decide (n.st ≠ .benched) || benchedKind e.telegram)

/-- R22, R169: with no own frame on the line the entries that are not to be sent leave the queue without counting; a REQUEST
among them ends (R198). -/
def clearQueue (n : Node) : Node :=
  if n.link.sending then n
  else
    let q := n.link.queue.filter (staysQueued n)
    let n1 : Node := { n with link := { n.link with
        queue := q, attempts := if q.head? = n.link.queue.head? then n.link.attempts else 0 } }
    if queuedRequest n.link.queue ∧ !queuedRequest q then endRequest n1 .refused else n1

/-- LINE_IDLE: the idle gap ends and slot counting starts (R19, R21, R29). -/
def lineIdle (n : Node) : Node :=
  if tracksW n then
    clearQueue { n with link := { n.link with stuck := false, slot := if n.link.sending then none else some 0, silentMs := 0,
                                              clashMark := 0 } }
  else n

/-- R21: the station that owns slot `k`. -/
def slotOwner (w k : Nat) : Nat := (w + k - 1) % 31 + 1

/-- Table 13: the node state sends this telegram. -/
def sendsKind (n : Node) (t : Telegram) : Bool :=
  match n.st with
  | .joining => isJoin t
  | .joined => true
  | .benched => benchedKind t
  | _ => false

/-- R21, R29: the node begins its frame in this slot. -/
def begins (n : Node) (k : Nat) : Bool :=
  decide (slotOwner n.link.w k = (cfg n).station) && !n.link.stuck &&
    (match n.link.queue.head? with
     | some e => sendsKind n e.telegram
     | none => false)

/-- SLOT_START: the next slot starts; after slot 31 counting starts again from 1 (R21). -/
def slotStart (n : Node) : Node :=
  match n.link.slot with
  | none => n
  | some k =>
    if !tracksW n then n
    else
      let next := if k < 31 then k + 1 else 1
      if begins n next then { n with link := { n.link with slot := none, sending := true, stopped := false, silentMs := 0 } }
      else { n with link := { n.link with slot := some next } }

/-- R33: a PRESENT is queued. -/
def presentQueued (n : Node) : Bool := n.link.queue.any fun e => decide (e.telegram = .present)

/-- SEND_TIMER: W/2 has passed; PRESENT is offered unless one is queued, and the timer restarts (R33). -/
def sendTimer (n : Node) : Node :=
  match n.link.sendElapsed with
  | none => n
  | some e =>
    if appliesFrames n ∧ (cfg n).silence ≤ 2 * e then
      let n1 := if presentQueued n then n else offerPlain n .present
      { n1 with link := { n1.link with sendElapsed := some 0 } }
    else n

/-! ### Completed frames (R25, R26, R34) -/

/-- The completed frame is the one the node is sending. -/
def isOwnFrame (n : Node) (o : Origin) (t : Telegram) : Bool :=
  n.link.sending && decide (o.sender = (cfg n).station) &&
    (match n.link.queue.head? with
     | some e => decide (e.telegram = t) && decide (e.restate = o.restate)
     | none => false)

/-- R26, R30: the own telegram leaves the queue and the own-completion run rises; at 16 LINK_FAULT becomes inactive. -/
def ownCompletes (n : Node) : Node :=
  let run := min 16 (n.link.ownRun + 1)
  { n with link := { n.link with
      queue := n.link.queue.drop 1, attempts := 0, sending := false, stopped := false, ownRun := run,
      linkFault := n.link.linkFault && decide (run < 16), sendElapsed := some 0, refusedOffers := [] } }

/-- R40: a frame that completes while the node is JOINED or BENCHED. -/
def countCompleted (n : Node) : Node :=
  if appliesFrames n then { n with link := { n.link with completed := n.link.completed + 1 } } else n

/-- The own frame completes: it is applied like every other (R26, R34) and its offer ends. The node's own DOWN makes it DOWN
(R32), and every refused offer is discarded with it; at any other own frame the refused offers are made again (R31). That what
the application and the completed block offer comes before them is the model's choice (log entry 52). -/
def completeOwn (n : Node) (o : Origin) (t : Telegram) (e : QEntry) : Node :=
  let due := n.link.refusedOffers
  let n1 := ownCompletes n
  let n2 := countCompleted (if isJoin t then joinCompletes n1 else n1)
  let regrade := match e.offerBy with
    | .regrade _ => true
    | _ => false
  let n3 := if appliesFrames n2 then applyFrame n2 o true regrade t else n2
  let n4 := offerCompleted n3 e
  if isDown t then goDown n4 else due.foldl reoffer n4

/-- R25: a second node has this node's station number. -/
def clashSecond (n : Node) (sender : Nat) : Node :=
  if sender = (cfg n).station ∧ tracksW n ∧ !(n.st = .muted ∧ n.muteCause = some .clash) then mute n .clash else n

/-- R28: the good-frame run of a node that was MUTED with cause VOIDING before the frame, and still is; at 64 it
rejoins. -/
def goodFrame (before n : Node) : Node :=
  if before.st = .muted ∧ n.st = .muted ∧ n.muteCause = some .voiding then
    if n.link.faulty then badEnd n
    else if n.link.goodRun + 1 < 64 then { n with link := { n.link with goodRun := n.link.goodRun + 1 } }
    else rejoinNode n
  else n

/-- A frame of another sender completes. -/
def completeOther (n : Node) (o : Origin) (t : Telegram) : Node :=
  let n1 := countVoidRun (countCompleted n)
  let n2 := if appliesFrames n1 then applyFrame n1 o false false t else n1
  goodFrame n (muteVoiding (clashSecond n2 o.sender))

/-- A frame completes (R20): w, the own attempt or another's frame, and what follows in every node state. -/
def completeFrame (o : Origin) (t : Telegram) (n : Node) : Node :=
  if tracksW n then
    let n1 := hearEnd { n with link := { n.link with w := o.sender } }
    let n2 :=
      match isOwnFrame n o t, n.link.queue with
      | true, e :: _ => completeOwn n1 o t e
      | _, _ => completeOther n1 o t
    holdSettle (clearFrame (if n.st = .listening then listenEnd n2 else n2))
  else n

end Sys2Proof.Machine
end

