-- ==== Sys2Proof/Machine/StartUp.lean ====
section
/-! DEFINITION. The configuration load (R189) with the checks of R65, R84 and Tables 31, 35, 40, 46, 50 and 56, and the
passing of one millisecond. -/

namespace Sys2Proof.Machine

def inRangeN (lo hi x : Nat) : Bool := decide (lo ≤ x) && decide (x ≤ hi)
def inRangeZ (lo hi x : Int) : Bool := decide (lo ≤ x) && decide (x ≤ hi)

/-! ### Checks -/

/-- Table 56: the colour slot of the role. -/
def slotOfRole (r : Role) (slot : Nat) : Bool :=
  match r with
  | .print => inRangeN 1 7 slot
  | .emboss => decide (slot = 8)
  | _ => decide (slot = 0)

/-- Table 56. -/
def nodeFieldsGood (c : Config) : Bool :=
  inRangeN 1 31 c.station && slotOfRole c.role c.colourSlot && inRangeN 100 2000 c.silence

/-- Table 24: a pattern's fields and the conditions of R65 on one entry. -/
def patternGood (p : Pattern) : Bool :=
  inRangeN 1 255 p.code && inRangeN 2500 16000 p.nominal && inRangeN 1250 65535 p.windowMin && inRangeN 1250 65535 p.windowMax &&
    decide (p.windowMin ≤ p.nominal) && decide (p.nominal ≤ p.windowMax) && inRangeN 1 8 p.colourCount &&
    decide (p.colourOffsets.length = 7) && p.colourOffsets.all (inRangeZ (-8000) 8000) &&
    (match p.embossOffset with
     | none => true
     | some o => inRangeZ (-8000) 8000 o) &&
    inRangeZ (-8000) 8000 p.cutOffset && inRangeN 10000 1000000 p.minRoll &&
    inRangeZ 1 32767 p.tolerance.lightness && inRangeZ 1 32767 p.tolerance.redGreen && inRangeZ 1 32767 p.tolerance.yellowBlue &&
    inRangeZ 1 32767 p.edgeTolerance

def noDuplicate : List Nat → Bool
  | [] => true
  | x :: xs => !xs.contains x && noDuplicate xs

/-- R65. -/
def patternTableGood (c : Config) : Bool :=
  decide (c.patterns.length ≤ 12) && noDuplicate (c.patterns.map (·.code)) && c.patterns.all patternGood

/-- R84, Table 28. -/
def loopFieldsGood (c : Config) : Bool :=
  inRangeN 0 7 c.captureCode && inRangeN 1 255 c.lockWindow && inRangeN 1 2560 c.unlockWindow &&
    decide (c.lockWindow ≤ c.unlockWindow) && inRangeN 1 16 c.captureGain && inRangeN 0 3 c.lockReduction &&
    inRangeN 1 2000 c.maxCorrection && inRangeN 1 10000 c.compensatorScale && inRangeN 50 20000 c.stepRate &&
    inRangeN 0 1000000 c.printToEye

/-- Table 31. -/
def nipFieldsGood (c : Config) : Bool := inRangeN 20 2000 c.actuationTime && inRangeN 0 20000 c.spliceMargin

/-- Table 35. -/
def shadeFieldsGood (c : Config) : Bool :=
  decide (c.gains.length = 6) && c.gains.all (inRangeN 1 65535) && decide (c.tiles.length = 6) &&
    c.tiles.all (inRangeZ (-32768) 32767) && inRangeN 100 10000 c.calibrationInterval && inRangeN 1 32 c.driftK

/-- Table 40. -/
def holdFieldsGood (c : Config) : Bool := inRangeN 1 255 c.quietQ

/-- Table 46. -/
def rollFieldsGood (c : Config) : Bool :=
  inRangeN 0 1000000 c.eyeToKnife && inRangeN 0 4 c.wasteBefore && inRangeN 0 4 c.wasteAfter && inRangeN 1 10 c.shortMin

/-- Table 50. -/
def labelFieldsGood (c : Config) : Bool := inRangeN 10 600 c.conveyorLimit

/-- R189: the checks of the role's own chapters. -/
def roleFieldsGood (c : Config) : Bool :=
  match c.role with
  | .key => holdFieldsGood c
  | .print => loopFieldsGood c && holdFieldsGood c
  | .emboss => loopFieldsGood c && nipFieldsGood c && holdFieldsGood c
  | .shade => shadeFieldsGood c && holdFieldsGood c
  | .rewind => rollFieldsGood c && holdFieldsGood c
  | .label => labelFieldsGood c

/-- The coded fields that the role checks: a code their table lacks makes the image bad. -/
def checkedCodes (r : Role) : List CodedField :=
  match r with
  | .print => [.role, .bitRate, .matchType, .dirSense, .clearMode]
  | .emboss => [.role, .bitRate, .matchType, .dirSense, .clearMode]
  | .label => [.role, .bitRate, .matchType]
  | _ => [.role, .bitRate, .matchType, .clearMode]

def fieldsGood (im : Image) : Bool :=
  nodeFieldsGood im.fields && patternTableGood im.fields && roleFieldsGood im.fields &&
    (checkedCodes im.fields.role).all fun f => !im.undefinedCodes.contains f

/-- R189: the length that the image begins with, its more significant byte first, the model's choice (log entry 6); a memory with
fewer bytes reads as blank. -/
def imageLength (im : Image) : Nat := beValue [im.bytes.getD 0 0xFF, im.bytes.getD 1 0xFF]

/-- R189: the bytes of the image. -/
def imageBytes (im : Image) : List Byte := (List.range (imageLength im)).map fun i => im.bytes.getD i 0xFF

/-- R189: the checksum over every byte before it equals the one read, its more significant byte first, the model's choice (log
entry 6). -/
def checksumGood (im : Image) : Bool :=
  let bs := imageBytes im
  let k := bs.length - 2
  decide (beValue (bs.drop k) = (crc16 (bytesBits (bs.take k))).toNat)

/-- R189: the fault of an image; none for a good one. -/
def imageFault (im : Image) : Option ConfigFault :=
  if !inRangeN 16 4096 (imageLength im) then some .noImage
  else if !checksumGood im then some .checksum
  else if !fieldsGood im then some .range
  else none

/-- CONFIGURATION_LOAD_END: with a good image the node is LISTENING (R35), with a bad one UNCONFIGURED (R189). -/
def configurationLoadEnd (im : Image) (n : Node) : Node :=
  if n.st = .loading ∧ !n.pins.resetLow then
    match imageFault im with
    | some f => setState { n with configFault := some f } .unconfigured
    | none =>
      enterListening { n with image := some im.fields, signature := (crc16 (bytesBits im.signatureBytes)).toNat }
  else n

/-! ### One millisecond (log entries 2 and 3) -/

/-- A timer that counts down. -/
def down1 (t : Option Nat) : Option Nat := t.map (· - 1)

def tickTrain (t : Option StepTrain) : Option StepTrain := t.map fun x => { x with elapsed := x.elapsed + 1 }

/-- R195: the silence of another station's entry grows while the node is JOINED or BENCHED. -/
def tickPeers (n : Node) : List Peer :=
  if appliesFrames n then
    n.peers.mapIdx fun i p =>
      if i + 1 = (cfg n).station ∨ p.state = .absent then p else { p with silence := p.silence + 1 }
  else n.peers

/-- R183: a block lasts 31.25 ms on LBLD. -/
def tickSending : Option (List Byte × Nat) → Option (List Byte × Nat)
  | none => none
  | some (b, t) => if t < 31 then some (b, t + 1) else none

/-- A millisecond passes: every timer of the node moves. -/
def tick (n : Node) : Node :=
  { n with
    now := n.now + 1,
    pins := { n.pins with supwarnQuiet := if n.pins.supwarn then 0 else min 100 (n.pins.supwarnQuiet + 1) },
    travel := { n.travel with intervalLeft := n.travel.intervalLeft - 1, standstill := down1 n.travel.standstill },
    trig := { n.trig with cut := down1 n.trig.cut },
    nip := { n.nip with actuation := down1 n.nip.actuation },
    loop := { n.loop with train := tickTrain n.loop.train, tail := tickTrain n.loop.tail },
    label := { n.label with debounce := down1 n.label.debounce, printTimer := down1 n.label.printTimer,
                            readyTimer := down1 n.label.readyTimer, applyTimer := down1 n.label.applyTimer,
                            sending := tickSending n.label.sending },
    link := { n.link with sendElapsed := n.link.sendElapsed.map (· + 1), listen := down1 n.link.listen,
                          resume := down1 n.link.resume,
                          silentMs := if n.link.stuck ∨ n.link.sending ∨ tracksW n = false then 0 else n.link.silentMs + 1,
                          clashMark := 0 },
    peers := tickPeers n }

end Sys2Proof.Machine
end

