-- ==== Sys2Proof/Machine/Port.lean ====
section
/-! DEFINITION. The station port (R196 to R199, Table 58): the views as bytes, the read commands and the request slot. A
byte of a view that the manual does not state is a free value (log entry 4). -/

namespace Sys2Proof.Machine

/-- A byte of a view; none stands for one the manual does not state. -/
abbrev ViewByte := Option Byte

def known (bs : List Byte) : List ViewByte := bs.map some
def k1 (x : Nat) : List ViewByte := [some (byte x)]
def k2 (x : Nat) : List ViewByte := known (be2 x)
def k3 (x : Nat) : List ViewByte := known (be3 x)
def k4 (x : Nat) : List ViewByte := known (be4 x)
def kSigned2 (z : Int) : List ViewByte := known (beSigned2 z)
def openBytes (k : Nat) : List ViewByte := List.replicate k none

/-- The bytes of an optional item of `k` bytes. -/
def optBytes {α : Type} (k : Nat) (f : α → List ViewByte) : Option α → List ViewByte
  | none => openBytes k
  | some x => f x

def flag (w : Nat) (b : Bool) : Nat := if b then w else 0

/-! ### NODE -/

def muteCode : Option MuteCause → Nat
  | none => 0 | some .voiding => 1 | some .clash => 2

def faultCode : Option ConfigFault → Nat
  | none => 0 | some .noImage => 1 | some .checksum => 2 | some .range => 3

def slotCode : SlotState → Nat
  | .idle => 0 | .pending => 1 | .sent => 2 | .refused => 3

/-- The job answer and the answered job number. -/
def answerBytes : JobAnswer → List ViewByte
  | .none => k1 0 ++ openBytes 2
  | .taken j => k1 1 ++ k2 j
  | .refused => k1 2 ++ openBytes 2

def nipCode : NipState → Nat
  | .opened => 0 | .closing => 1 | .closed => 2 | .opening => 3

def headCode : HeadState → Nat
  | .uncalibrated => 0 | .calibrating => 1 | .measuring => 2

def printerCode : Printer → Nat
  | .idle => 0 | .printing => 1 | .fault => 2

def gateCode : Gate → Nat
  | .holdLane => 0 | .pass => 1 | .wasteLane => 2

/-- Table 58: a register error; −32,768 means absent. -/
def errorBytes (e : Option Int) : List ViewByte := kSigned2 (e.getD (-32768))

/-- Table 58, NODE: bytes 0 to 13. -/
def nodeStateBytes (n : Node) : List ViewByte :=
  k1 n.st.code ++ k1 (muteCode n.muteCause) ++ k1 n.resetCause.code ++
    optBytes 3 (fun (c : Config) => k1 c.role.code ++ k1 c.station ++ k1 c.colourSlot) n.image ++
    k1 (faultCode n.configFault) ++ k1 n.port.attention.toNat ++ k1 (slotCode n.port.slot) ++
    optBytes 1 (fun (k : RequestKind) => k1 k.code) n.port.kind ++ optBytes 1 k1 n.port.arg ++ answerBytes n.port.answer

/-- Table 58, NODE: bytes 14 to 38. -/
def nodeTrackBytes (n : Node) : List ViewByte :=
  k1 n.hold.state.code ++ k1 n.track.tracker.code ++ k3 (n.track.here.getD 0) ++ k2 (factorInputs n).toNat ++
    k2 (factorSet n).toNat ++
    k1 (flag 1 n.link.stuck + flag 2 (decide (n.travel.motion = .standstill)) + flag 4 n.loop.train.isSome +
      flag 8 n.benchMark + flag 16 n.shade.run.isSome) ++
    k2 n.travel.speed ++ k1 n.loop.state.code ++ errorBytes n.loop.lastError ++ k3 (n.loop.lastErrorRepeat.getD 0) ++
    kSigned2 n.loop.lastSteps ++ k3 (n.loop.lastStepsRepeat.getD 0) ++ k2 n.loop.settle

/-- Table 58, NODE: bytes 39 to 45. -/
def nodeLabelBytes (n : Node) : List ViewByte :=
  k1 (nipCode n.nip.state) ++ k1 (headCode n.shade.head) ++ k1 (printerCode n.label.printer) ++ k1 (gateCode n.label.gate) ++
    k1 (flag 1 n.label.present) ++ k1 n.label.queue.length ++ k1 n.label.outcomes.length

def viewNode (n : Node) : List ViewByte := nodeStateBytes n ++ nodeTrackBytes n ++ nodeLabelBytes n

/-! ### PEERS -/

def peerStateCode : PeerState → Nat
  | .absent => 0 | .present => 1 | .quiet => 2 | .lost => 3 | .down => 4 | .benched => 5

def roleBytes : Option (Role × Nat) → List ViewByte
  | none => k1 255 ++ openBytes 1
  | some r => k1 r.1.code ++ k1 r.2

/-- Table 58, PEERS: one entry; the state of the own entry follows R192. An entry that holds no signature does
not count as differing, the model's choice (log entry 33). -/
def peerBytes (n : Node) (i : Nat) (p : Peer) : List ViewByte :=
  k1 (peerStateCode p.state) ++ roleBytes p.role ++ k1 (match p.cause with | none => 255 | some c => c.code) ++ k1 p.restarts ++
    k1 (flag 1 p.learnt + flag 2 (match p.signature with | none => false | some s => decide (s ≠ n.signature)) +
      flag 4 (decide (i + 1 = (cfg n).station))) ++
    k2 (min 65535 (p.silence / 10)) ++ optBytes 2 k2 p.signature ++ k3 p.lastRepeat

def viewPeers (n : Node) : List ViewByte := (n.peers.mapIdx (peerBytes n)).flatten

/-! ### TRACK -/

/-- The tracker part: state, here, x in tenths, last depth. -/
def trackerBytes (n : Node) : List ViewByte :=
  k1 n.track.tracker.code ++ k3 (n.track.here.getD 0) ++
    optBytes 2 k2 (if eyeRole n then (newestRecord n).bind (fun r =>
      if r.length = 0 then none else some (expectedDepth (cfg n).keyToEye r.length)) else none) ++
    (match n.track.lastDepth with
     | none => k1 255
     | some d => if d < 255 then k1 d else openBytes 1)

def resultBytes : Option RegResult → List ViewByte
  | none => k1 0 ++ openBytes 5
  | some r => k1 1 ++ k1 r.state.code ++ errorBytes r.error ++ kSigned2 r.steps

def tripleBytes (t : Option Triple) : List ViewByte := optBytes 6 (fun t => known (beTriple t)) t

/-- Table 58: grade (255 absent), triple presence and the two triples. -/
def shadeFieldBytes : Option ShadeField → List ViewByte
  | none => k1 255 ++ k1 0 ++ openBytes 12
  | some s => k1 s.grade.code ++ k1 (flag 1 s.left.isSome + flag 2 s.right.isSome) ++ tripleBytes s.left ++ tripleBytes s.right

def recordBytes (r : RepeatRecord) : List ViewByte :=
  k3 r.number ++ k2 r.length ++ k2 r.job ++ k1 (flag 1 r.splice.isSome) ++ optBytes 2 k2 r.splice ++
    (r.results.map resultBytes).flatten ++ k1 (match r.nip with | none => 255 | some c => c.code) ++
    shadeFieldBytes r.shade ++ k2 r.batch ++ k4 r.heldBy.toNat

/-! ### ROLLS -/

def dispositionBytes (n : Node) (number : Nat) : List ViewByte :=
  match dispositionOf n number with
  | none => openBytes 3
  | some (.waiting d) => k1 0 ++ k2 (min 65535 ((d - n.now) / 1000))
  | some .labelling => k1 1 ++ openBytes 2
  | some (.decided o) => k1 2 ++ k2 o.code

def rollEntryBytes (n : Node) (c : RollContent) : List ViewByte :=
  known (rollBytes c) ++ (if isRole n .label then dispositionBytes n c.number else [])

/-- The open piece in ROLL form: what it does not hold yet is not stated. -/
def pieceBytes : Option OpenPiece → List ViewByte
  | none => k3 0 ++ openBytes 19
  | some p => k3 p.number ++ k1 p.kind.code ++ k3 p.first ++ openBytes 4 ++ k2 p.job ++ openBytes 1 ++
      k2 (carriedCauses p).toNat ++ openBytes 6

/-- The reason set in the order of Table 45, bit 0 first (log entry 33). -/
def reasonBits (r : CutReasons) : Nat :=
  flag 1 r.full + flag 2 r.splice + flag 4 r.batch + flag 8 r.job + flag 16 r.operator + flag 32 r.start

def planBytes (e : PlanEntry) : List ViewByte :=
  k3 e.cut ++ k2 (reasonBits e.reasons) ++ k1 e.kind.code ++
    (match e.arming with
     | none => k1 0 ++ openBytes 4
     | some a => k1 a.tag ++ k4 a.knife.toNat) ++
    k1 (flag 1 e.moved + flag 2 e.late)

def counted {α : Type} (f : α → List ViewByte) (l : List α) : List ViewByte := k1 l.length ++ (l.map f).flatten

/-- Table 58, ROLLS; that a piece awaiting completion stands there as its 22 ROLL bytes is the model's choice (log entry 33). -/
def viewRolls (n : Node) : List ViewByte :=
  counted (rollEntryBytes n) n.roll.list ++ counted (fun (d : Nat × LabelOutcome) => k3 d.1 ++ k1 d.2.code) n.roll.departed ++
    (if isRole n .rewind then
      pieceBytes n.roll.piece ++ counted planBytes n.roll.plan ++
        counted (fun (c : RollContent) => known (rollBytes c)) n.roll.awaiting ++ k3 (n.roll.lastGap.getD 0)
     else [])

/-! ### BATCHES, HOLDS, JOB, COUNTERS -/

def batchStateCode : BatchState → Nat
  | .forming => 0 | .fixed => 1 | .closed => 2

def batchBytes (b : BatchEntry) : List ViewByte :=
  k2 b.code ++ k3 b.first ++ k3 (b.last.getD 0) ++ k1 (batchStateCode b.state) ++ k1 (flag 1 b.reference.isSome) ++
    tripleBytes b.reference

def phaseCode : BatchPhase → Nat
  | .forming => 0 | .fixed => 1

def viewBatches (n : Node) : List ViewByte :=
  counted batchBytes n.batch.list ++
    (if isRole n .shade then
      optBytes 1 (fun (b : OwnBatch) => k1 (phaseCode b.phase)) n.batch.own ++
        k1 (match n.batch.own with | none => 0 | some b => b.count) ++ k1 n.batch.driftRun ++
        k3 (n.batch.driftFirst.getD 0) ++ k1 (flag 1 n.batch.watch.isSome)
     else [])

def holdBytes (h : HoldEntry) : List ViewByte :=
  k1 h.station ++ k3 h.first ++ k3 (h.last.getD 0) ++ k2 h.causes.toNat ++ k1 (flag 1 h.last.isSome)

def viewHolds (n : Node) : List ViewByte := counted holdBytes n.hold.list

def jobBytes : Option JobRecord → List ViewByte
  | none => k2 0 ++ openBytes 1 ++ k3 0
  | some j => k2 j.number ++ k1 j.pattern ++ k3 j.first

def viewJob (n : Node) : List ViewByte :=
  jobBytes n.job.given ++ jobBytes n.job.current ++ counted (fun j => jobBytes (some j)) n.job.history ++
    k1 (flag 1 n.job.unknownPart + flag 2 n.job.lengthPart + flag 4 n.job.tallyPart) ++ optBytes 2 k2 n.job.observedLength ++
    k1 (n.marks.observed.getD 0) ++ k1 (n.job.observedPattern.getD 0)

def viewCounters (n : Node) : List ViewByte :=
  ([n.link.completed, n.link.raised, n.link.seenVoids, n.link.dropped, n.link.discarded, n.marks.stray, n.track.missed,
    n.track.unclaimed, n.track.evictions, n.track.spliceOverflows, n.roll.planRefusals, n.roll.cutsMoved,
    n.roll.lateDecisions, n.port.refusals, n.label.printed, n.label.diverted].map fun (x : Count32) => k4 x.toNat).flatten

/-! ### Transactions (R196, R197) -/

/-- The bytes as they are shifted out: an unstated one is a free value. -/
def fillFrom (i : Nat) : List ViewByte → List Byte
  | [] => []
  | some b :: bs => b :: fillFrom (i + 1) bs
  | none :: bs => Config.freeByte i :: fillFrom (i + 1) bs

/-- R196: the answer is the status, the content length in two bytes, and the content. -/
def answer (n : Node) (status : Nat) (content : List ViewByte) : Node :=
  useFree { n with port := { n.port with
    out := byte status :: (be2 content.length ++ fillFrom n.freeIndex content) } } content.length

/-- R196: a byte that the host clocks out of the answer; one behind the content reads as 0. -/
def clockedByte (n : Node) (i : Nat) : Byte := n.port.out.getD i 0

/-- R196: the bits on SPDO for a run of bytes of the answer, and on SPDI for the bytes a host sends: the most significant bit
first. -/
def clockedBits (n : Node) (first count : Nat) : List Bool :=
  bytesBits ((List.range count).map fun i => clockedByte n (first + i))

/-- R197, R198: LOADING, UNCONFIGURED and DOWN answer NOT_READY. -/
def notReady (n : Node) : Bool :=
  decide (n.st = .loading) || decide (n.st = .unconfigured) || decide (n.st = .down)

/-- R197: a view other than NODE. -/
def readView (view : Node → List ViewByte) (n : Node) : Node := if notReady n then answer n 4 [] else answer n 0 (view n)

/-- R197, R199: a NODE read empties the attention causes. While RESETN is low the port answers as in LOADING, the model's
reading (log entry 29). -/
def readNodeView (n : Node) : Node :=
  let n1 := answer n 0 (viewNode n)
  { n1 with port := { n1.port with attention := 0 } }

/-- R197: a TRACK read of one repeat number. -/
def readTrackView (x : Nat) (n : Node) : Node :=
  if notReady n then answer n 4 []
  else
    match findRecord n x with
    | some r => answer n 0 (trackerBytes n ++ recordBytes r)
    | none => answer n 5 (trackerBytes n)

/-- R197: a command byte outside Table 58. That its answer has length 0 is the model's choice (log entry 34). -/
def unknownCommandByte (code : Nat) (n : Node) : Node :=
  if [1, 2, 3, 4, 5, 6, 7, 8, 16].contains code then n else answer n 6 []

/-! ### The request slot (R198) -/

/-- R198: HOLD_ON and CLEAR_HOLD name a station from 1 to 31. -/
def requestValid (kind : RequestKind) (arg : Nat) : Bool :=
  match kind with
  | .holdOn => inRangeN 1 31 arg
  | .clearHold => inRangeN 1 31 arg
  | _ => true

/-- R198: the slot takes the request and REQUEST is offered; an offer that does not enter the queue ends it. -/
def acceptRequest (n : Node) (kind : RequestKind) (arg : Nat) : Node :=
  let n1 : Node := { n with port := { n.port with slot := .pending, kind := some kind, arg := some arg, answer := .none } }
  match enqueue n1 (.request kind arg) false .request with
  | (n2, .placed) => n2
  | (n2, _) => endRequest n2 .refused

/-- R198: a placement and its answer. -/
def placeRequest (kind : RequestKind) (arg : Nat) (n : Node) : Node :=
  if notReady n then answer n 4 []
  else if !requestValid kind arg then answer n 3 []
  else if n.port.slot = .pending then answer n 2 []
  else holdSettle (answer (acceptRequest n kind arg) 1 [])

/-- R198: a placement whose kind lies outside Table 16. -/
def placeInvalid (n : Node) : Node := if notReady n then answer n 4 [] else answer n 3 []

/-! ### The bytes of a command (Table 58) -/

/-- Table 58, command byte 16, with Table 16's request kinds. -/
def placeCommand (kind arg : Byte) : Instr :=
  match kind.toNat with
  | 0 => .placeNewJob arg.toNat
  | 1 => .placeCloseBatch arg.toNat
  | 2 => .placeCloseRoll arg.toNat
  | 3 => .placeHoldOn arg.toNat
  | 4 => .placeClearHold arg.toNat
  | k => .placeInvalidRequestKind k arg.toNat

/-- R197: what a command byte with no arguments asks for. -/
def plainCommand (code : Byte) : Instr :=
  match code.toNat with
  | 1 => .readNode
  | 2 => .readPeers
  | 4 => .readRolls
  | 5 => .readBatches
  | 6 => .readHolds
  | 7 => .readJob
  | 8 => .readCounters
  | k => .unknownCommand k

/-- R196 to R198: the command that is taken once these bytes of a transaction are in, the command byte first; none while an
argument byte is missing. Bytes behind the last argument clock the answer out. -/
def hostCommand : List Byte → Option Instr
  | [] => none
  | c :: args =>
    if c.toNat = 3 then
      match args with
      | a :: b :: d :: _ => some (.readTrack (beValue [a, b, d]))
      | _ => none
    else if c.toNat = 16 then
      match args with
      | k :: a :: _ => some (placeCommand k a)
      | _ => none
    else some (plainCommand c)

/-- R196: the command that the bits on SPDI spell, eight to a byte, the most significant first. -/
def hostBits (bits : List Bool) : Option Instr := hostCommand (bytesOfBits (bits.length / 8) bits)

end Sys2Proof.Machine
end

