-- ==== Sys2Proof/Machine/Cases.lean ====
section
/-! DEFINITION. The rows of the operation table that name a moment inside another step (a run or a count that reaches its
limit): the step that brings it about, and what tells that it came about (log entry 1). -/

namespace Sys2Proof.Machine

/-- The step that brings a moment about. -/
def occur : Occasion → Node → Node
  | .encoder a b => encoderCount a b
  | .trailingEdge => markTrailingEdge
  | .embossIndex => embossIndex
  | .registerWindowEnd => registerWindowEnd
  | .trackerWindowEnd => trackerWindowEnd
  | .tallySpanEnd => tallySpanEnd
  | .cylinderIndex => cylinderIndex
  | .frameVoided s => frameVoided s
  | .frameCutShort => frameCutShort
  | .completed o t => completeFrame o t

/-- The command of a moment: the step that brings it about, where it does come about; elsewhere nothing happens. -/
def namedCase (hit : Occasion → Node → Bool) (c : Occasion) (n : Node) : Node := if hit c n then occur c n else n

/-! ### The travel -/

/-- R3. -/
def reversedBegins (c : Occasion) (n : Node) : Bool := !n.travel.webReversed && (occur c n).travel.webReversed
def reversedEnds (c : Occasion) (n : Node) : Bool := n.travel.webReversed && !(occur c n).travel.webReversed

/-! ### The match report of a step -/

/-- R57, R61: the tracker offers no mark to matching. -/
def offersNone (n : Node) : Bool := decide (n.track.tracker = .idle) || decide (n.track.tracker = .lost)

/-- R54: the match report that the step makes, with the node that makes it. -/
def stepReport (c : Occasion) (n : Node) : Option (Node × MatchReport) :=
  match c with
  | .trailingEdge =>
    (keyMarkEnded n).bind fun p => if offersNone p.1 then none else markReport (failSpan p.1) p.2.edge p.2.time
  | .trackerWindowEnd =>
    (match n.track.tracker, n.track.predicted with
     | .track, some p => if trackerWindowOver n then synthReport n p else none
     | _, _ => none)
  | _ => none

/-! ### The runs of the loop -/

/-- A step without a match report that takes the open window's result. -/
def windowResult (n t : Node) : List (Node × Node) :=
  if n.marks.window.isSome && t.marks.window.isNone then [(n, t)] else []

/-- R85: the results that the loop handles in the step, each as the node before it and after it. A match report closes the open
window and opens that of its own repeat; any other step takes one result at most. -/
def loopResults (c : Occasion) (n : Node) : List (Node × Node) :=
  match stepReport c n with
  | some q =>
    let m := reportClose q.1 q.2
    [(reportStart q.1 q.2, m), (m, reportOpen m q.2)]
  | none =>
    match c with
    | .trailingEdge => windowResult n (occur c n)
    | .embossIndex => windowResult n (occur c n)
    | .registerWindowEnd => windowResult n (occur c n)
    | _ => []

/-- A result of the step moves the loop from such a state to such a state. -/
def resultMoves (moves : LoopState → LoopState → Bool) (c : Occasion) (n : Node) : Bool :=
  (loopResults c n).any fun p => moves p.1.loop.state p.2.loop.state

/-- R87: the open run reached 2. -/
def openRunHit : Occasion → Node → Bool := resultMoves fun a b => decide (a = .opened) && decide (b ≠ .opened)

/-- R89: the lock run reached 4. -/
def lockRunHit : Occasion → Node → Bool := resultMoves fun a b => decide (a ≠ .locked) && decide (b = .locked)

/-- R90: the unlock run reached 2. -/
def unlockRunHit : Occasion → Node → Bool := resultMoves fun a b => decide (a = .locked) && decide (b = .capture)

/-- R86: the absent run reached 3. -/
def absentRunHit : Occasion → Node → Bool := resultMoves fun a b => decide (a ≠ .opened) && decide (b = .opened)

/-- R97: a match report lowered the settle count to 0. -/
def settleHit (c : Occasion) (n : Node) : Bool :=
  let t := occur c n
  decide (n.loop.settle ≠ 0) && decide (t.loop.settle = 0) && decide (t.st = n.st)

/-! ### The job checks -/

/-- R78: the node right after the tally read that the step enters; a key mark's match comes after it (log entry 59). -/
def readEntered (c : Occasion) (n : Node) : Node :=
  match c with
  | .trailingEdge =>
    (match keyMarkEnded n with
     | some p => failSpan p.1
     | none => n)
  | .tallySpanEnd => tallySpanEnd n
  | _ => n

/-- R78: a read brought the suspension count to 0. -/
def suspensionHit (c : Occasion) (n : Node) : Bool :=
  decide (n.job.suspension ≠ 0) && decide ((readEntered c n).job.suspension = 0)

/-- R77: the outside run reached 4. -/
def outsideHit (c : Occasion) (n : Node) : Bool := decide (n.job.outside ≠ 4) && decide ((occur c n).job.outside = 4)

/-- R77: the inside run reached 4 with the length part active. -/
def insideHit (c : Occasion) (n : Node) : Bool :=
  let t := occur c n
  n.job.lengthPart && !t.job.lengthPart && decide (t.job.inside = 4)

/-! ### The tracker -/

/-- R58: a match brought the align count to 4, whether or not the switch it carried then moves the tracker (R62). -/
def alignHit (c : Occasion) (n : Node) : Bool :=
  let t := occur c n
  decide (n.track.tracker = .align) && decide (3 ≤ n.track.alignCount) && reported n t && t.track.here.isSome &&
    decide (t.track.evictions = n.track.evictions)

/-- R60: the third miss in a row. -/
def missHit (c : Occasion) (n : Node) : Bool :=
  decide (n.track.tracker ≠ .lost) && decide ((occur c n).track.tracker = .lost)

/-! ### Shade and batches -/

/-- R121: the due count reached the interval. -/
def dueHit (c : Occasion) (n : Node) : Bool :=
  decide (n.shade.due < (cfg n).calibrationInterval) && decide ((cfg n).calibrationInterval ≤ (occur c n).shade.due)

/-- The code of the own batch while it is FIXED. -/
def fixedCode (n : Node) : Option Nat :=
  n.batch.own.bind fun b => if b.phase = .fixed then some b.code else none

/-- R130: the forming count reached 16. -/
def formingHit (c : Occasion) (n : Node) : Bool :=
  let t := occur c n
  (fixedCode t).isSome && decide (fixedCode n ≠ fixedCode t)

/-- R131: a drift run reached K, whatever becomes of its opening (log entry 61). -/
def driftHit (c : Occasion) (n : Node) : Bool := decide (n.batch.driftReached < (occur c n).batch.driftReached)

/-- R134: the step watch held its fourth OK repeat. -/
def watchHit (c : Occasion) (n : Node) : Bool :=
  let t := occur c n
  (match n.batch.watch with
   | some w => decide (w.held.length = 3)
   | none => false) &&
  decide (n.batch.history ≠ t.batch.history) &&
  (match t.batch.history.getLast? with
   | some g => decide (g.grade = .ok)
   | none => false)

/-! ### Holds -/

/-- R146: the node of a step that carries a match report or an issue, before the Hold Unit takes it. -/
def quietStep (c : Occasion) (n : Node) : Option Node :=
  match c with
  | .trailingEdge => (markTaken n).filter (reported n)
  | .trackerWindowEnd => (windowMissed n).filter (reported n)
  | .cylinderIndex => indexIssues n
  | _ => none

/-- R146: the report or issue of the step, counted after the factor changes it causes, brings the quiet count to Q. -/
def quietHit (c : Occasion) (n : Node) : Bool :=
  match (quietStep c n).map holdSettle with
  | some h => holdWorks h && decide (h.hold.state = .quieting) && decide ((cfg h).quietQ ≤ h.hold.quiet + 1)
  | none => false

/-! ### The line link -/

/-- R26: the third ended attempt dropped the telegram. -/
def dropHit (c : Occasion) (n : Node) : Bool :=
  let t := occur c n
  n.link.sending && decide (n.link.attempts = 2) && decide (t.link.attempts = 0) &&
    decide (t.link.dropped ≠ n.link.dropped) && decide (t.link.completed = n.link.completed)

/-- R27: the void run reached 16. -/
def voidRunHit (c : Occasion) (n : Node) : Bool := appliesFrames n && decide (16 ≤ (occur c n).link.voidRun)

/-- R28: the good-frame run reached 64. -/
def rejoinHit (c : Occasion) (n : Node) : Bool := decide (n.st = .muted) && decide ((occur c n).st = .listening)

/-- R30: an own completion brings the own-completion run to 16 with LINK_FAULT active, whether or not an offer that is refused in
the same step makes LINK_FAULT active again. -/
def ownRunHit (c : Occasion) (n : Node) : Bool :=
  match c with
  | .completed o t => tracksW n && isOwnFrame n o t && n.link.linkFault && decide (16 ≤ n.link.ownRun + 1)
  | _ => false

end Sys2Proof.Machine
end

