-- ==== Sys2Proof/Machine/FrameCommands.lean ====
section
/-! DEFINITION. The meanings of the commands: Completed frames. -/

namespace Sys2Proof.Machine

/-- JOIN (R36). -/
def execJoin (o : Origin) (p : JoinPayload) (s : State) : Host.Outcome State Fault Refusal :=
  runNode (completeFrame o (.join p)) s

/-- RESUME (R38). -/
def execResume (o : Origin) (p : ResumePayload) (s : State) : Host.Outcome State Fault Refusal :=
  runNode (completeFrame o (.resume p)) s

/-- PRESENT (R195). -/
def execPresent (o : Origin) (s : State) : Host.Outcome State Fault Refusal :=
  runNode (completeFrame o .present) s

/-- DOWN (R195). -/
def execDown (o : Origin) (cause : ResetCause) (s : State) : Host.Outcome State Fault Refusal :=
  runNode (completeFrame o (.down cause)) s

/-- UNDEFINED_CODE_TELEGRAM (R34). -/
def execUndefinedCodeTelegram (o : Origin) (p : UndefinedPayload) (s : State) : Host.Outcome State Fault Refusal :=
  runNode (completeFrame o (.undefined p)) s

/-- REQUEST_NEW_JOB (R70). -/
def execRequestNewJob (o : Origin) (arg : Nat) (s : State) : Host.Outcome State Fault Refusal :=
  runNode (completeFrame o (.request .newJob arg)) s

/-- REQUEST_CLOSE_BATCH (R132). -/
def execRequestCloseBatch (o : Origin) (arg : Nat) (s : State) : Host.Outcome State Fault Refusal :=
  runNode (completeFrame o (.request .closeBatch arg)) s

/-- REQUEST_CLOSE_ROLL (R163). -/
def execRequestCloseRoll (o : Origin) (arg : Nat) (s : State) : Host.Outcome State Fault Refusal :=
  runNode (completeFrame o (.request .closeRoll arg)) s

/-- REQUEST_HOLD_ON (R142). -/
def execRequestHoldOn (o : Origin) (arg : Nat) (s : State) : Host.Outcome State Fault Refusal :=
  runNode (completeFrame o (.request .holdOn arg)) s

/-- REQUEST_CLEAR_HOLD (R148). -/
def execRequestClearHold (o : Origin) (arg : Nat) (s : State) : Host.Outcome State Fault Refusal :=
  runNode (completeFrame o (.request .clearHold arg)) s

/-- JOB_TAKEN (R67). -/
def execJobTaken (o : Origin) (p : JobPayload) (s : State) : Host.Outcome State Fault Refusal :=
  runNode (completeFrame o (.jobTaken p)) s

/-- JOB_REFUSED (R68). -/
def execJobRefused (o : Origin) (p : JobPayload) (s : State) : Host.Outcome State Fault Refusal :=
  runNode (completeFrame o (.jobRefused p)) s

/-- REPEAT (R43). -/
def execRepeat (o : Origin) (p : RepeatPayload) (s : State) : Host.Outcome State Fault Refusal :=
  runNode (completeFrame o (.repeat_ p)) s

/-- REGISTER (R45). -/
def execRegister (o : Origin) (p : RegisterPayload) (s : State) : Host.Outcome State Fault Refusal :=
  runNode (completeFrame o (.register p)) s

/-- SHADE (R46). -/
def execShade (o : Origin) (p : ShadePayload) (s : State) : Host.Outcome State Fault Refusal :=
  runNode (completeFrame o (.shade p)) s

/-- BATCH_OPENED (R135). -/
def execBatchOpened (o : Origin) (p : BatchPayload) (s : State) : Host.Outcome State Fault Refusal :=
  runNode (completeFrame o (.batchOpened p)) s

/-- BATCH_FIXED (R136). -/
def execBatchFixed (o : Origin) (p : BatchPayload) (reference : Triple) (s : State) : Host.Outcome State Fault Refusal :=
  runNode (completeFrame o (.batchFixed p reference)) s

/-- HOLD_SET (R150). -/
def execHoldSet (o : Origin) (number : Nat) (causes : CauseSet) (s : State) : Host.Outcome State Fault Refusal :=
  runNode (completeFrame o (.holdSet number causes)) s

/-- HOLD_CLEAR (R151). -/
def execHoldClear (o : Origin) (number : Nat) (causes : CauseSet) (s : State) : Host.Outcome State Fault Refusal :=
  runNode (completeFrame o (.holdClear number causes)) s

/-- ROLL (R170). -/
def execRoll (o : Origin) (p : RollContent) (s : State) : Host.Outcome State Fault Refusal :=
  runNode (completeFrame o (.roll p)) s

/-- LABELLED (R172). -/
def execLabelled (o : Origin) (number : Nat) (outcome : LabelOutcome) (s : State) : Host.Outcome State Fault Refusal :=
  runNode (completeFrame o (.labelled number outcome)) s

end Sys2Proof.Machine
end

