-- ==== Sys2Proof/Machine/LinkCommands.lean ====
section
/-! DEFINITION. The meanings of the commands: The line link. -/

namespace Sys2Proof.Machine

/-- SLOT_START (R21). -/
def execSlotStart (s : State) : Host.Outcome State Fault Refusal :=
  runNode slotStart s

/-- FRAME_CHECK (R23). -/
def execFrameCheck (bits : List Bool) (s : State) : Host.Outcome State Fault Refusal :=
  runNode (frameCheck bits) s

/-- FRAME_VOIDED (R26). -/
def execFrameVoided (sender : Nat) (s : State) : Host.Outcome State Fault Refusal :=
  runNode (frameVoided sender) s

/-- FRAME_CUT_SHORT (R26). -/
def execFrameCutShort (s : State) : Host.Outcome State Fault Refusal :=
  runNode frameCutShort s

/-- TELEGRAM_DROPPED (R26). -/
def execTelegramDropped (by_ : Occasion) (s : State) : Host.Outcome State Fault Refusal :=
  runNode (namedCase dropHit by_) s

/-- SENDER_BIT_DIFFERENCE (R24). -/
def execSenderBitDifference (inHeader : Bool) (s : State) : Host.Outcome State Fault Refusal :=
  runNode (senderBitDifference inHeader) s

/-- CLASH_MARK_DETECTED (R24). -/
def execClashMarkDetected (s : State) : Host.Outcome State Fault Refusal :=
  runNode clashMarkDetected s

/-- LINE_STUCK (R29). -/
def execLineStuck (frameOnLine : Bool) (s : State) : Host.Outcome State Fault Refusal :=
  runNode (lineStuck frameOnLine) s

/-- LINE_IDLE (R29). -/
def execLineIdle (s : State) : Host.Outcome State Fault Refusal :=
  runNode lineIdle s

/-- VOID_RUN_LIMIT (R27). -/
def execVoidRunLimit (by_ : Occasion) (s : State) : Host.Outcome State Fault Refusal :=
  runNode (namedCase voidRunHit by_) s

/-- REJOIN (R28). -/
def execRejoin (by_ : Occasion) (s : State) : Host.Outcome State Fault Refusal :=
  runNode (namedCase rejoinHit by_) s

/-- OWN_COMPLETION_RUN_LIMIT (R30). -/
def execOwnCompletionRunLimit (by_ : Occasion) (s : State) : Host.Outcome State Fault Refusal :=
  runNode (namedCase ownRunHit by_) s

/-- SEND_TIMER (R33). -/
def execSendTimer (s : State) : Host.Outcome State Fault Refusal :=
  runNode sendTimer s

/-- LISTEN_TIMER (R35). -/
def execListenTimer (s : State) : Host.Outcome State Fault Refusal :=
  runNode listenTimer s

/-- LISTEN_SILENCE (R35). -/
def execListenSilence (s : State) : Host.Outcome State Fault Refusal :=
  runNode listenSilence s

/-- RESUME_WINDOW_CLOSE (R38). -/
def execResumeWindowClose (s : State) : Host.Outcome State Fault Refusal :=
  runNode resumeWindowClose s

end Sys2Proof.Machine
end

