-- ==== Sys2Proof/Machine/StationCommands.lean ====
section
/-! DEFINITION. The meanings of the commands: Peers, supply, resets, labelling and the station port. -/

namespace Sys2Proof.Machine

/-- PEER_SILENCE_W (R195). -/
def execPeerSilenceW (station : Nat) (s : State) : Host.Outcome State Fault Refusal :=
  runNode (peerSilenceW station) s

/-- PEER_SILENCE_2W (R195). -/
def execPeerSilence2W (station : Nat) (s : State) : Host.Outcome State Fault Refusal :=
  runNode (peerSilence2W station) s

/-- SUPPLY_WARNING (R32). -/
def execSupplyWarning (s : State) : Host.Outcome State Fault Refusal :=
  runNode supplyWarning s

/-- SUPPLY_RECOVERY (R190). -/
def execSupplyRecovery (s : State) : Host.Outcome State Fault Refusal :=
  runNode supplyRecovery s

/-- POWER_RESET (R190). -/
def execPowerReset (s : State) : Host.Outcome State Fault Refusal :=
  runNode powerReset s

/-- PIN_RESET (R190). -/
def execPinReset (low : Bool) (s : State) : Host.Outcome State Fault Refusal :=
  runNode (pinReset low) s

/-- CONFIGURATION_LOAD_END (R189). -/
def execConfigurationLoadEnd (image : Image) (s : State) : Host.Outcome State Fault Refusal :=
  runNode (configurationLoadEnd image) s

/-- ARRIVE_EDGE (R179). -/
def execArriveEdge (high : Bool) (s : State) : Host.Outcome State Fault Refusal :=
  runNode (arriveEdge high) s

/-- ARRIVAL (R180). -/
def execArrival (s : State) : Host.Outcome State Fault Refusal :=
  runNode arrival s

/-- SENSOR_CLEAR (R179). -/
def execSensorClear (s : State) : Host.Outcome State Fault Refusal :=
  runNode sensorClear s

/-- READY_FALL (R184). -/
def execReadyFall (s : State) : Host.Outcome State Fault Refusal :=
  runNode readyFall s

/-- READY_RISE (R184). -/
def execReadyRise (s : State) : Host.Outcome State Fault Refusal :=
  runNode readyRise s

/-- PRINT_TIMER (R185). -/
def execPrintTimer (s : State) : Host.Outcome State Fault Refusal :=
  runNode printTimer s

/-- READY_TIMER (R185). -/
def execReadyTimer (s : State) : Host.Outcome State Fault Refusal :=
  runNode readyTimer s

/-- APPLY_PULSE_END (R184). -/
def execApplyPulseEnd (s : State) : Host.Outcome State Fault Refusal :=
  runNode applyPulseEnd s

/-- ROLL_DEADLINE (R178). -/
def execRollDeadline (number : Nat) (s : State) : Host.Outcome State Fault Refusal :=
  runNode (rollDeadline number) s

/-- READ_NODE (R197). -/
def execReadNode (s : State) : Host.Outcome State Fault Refusal :=
  runNode readNodeView s

/-- READ_PEERS (R197). -/
def execReadPeers (s : State) : Host.Outcome State Fault Refusal :=
  runNode (readView viewPeers) s

/-- READ_TRACK (R197). -/
def execReadTrack (number : Nat) (s : State) : Host.Outcome State Fault Refusal :=
  runNode (readTrackView number) s

/-- READ_ROLLS (R197). -/
def execReadRolls (s : State) : Host.Outcome State Fault Refusal :=
  runNode (readView viewRolls) s

/-- READ_BATCHES (R197). -/
def execReadBatches (s : State) : Host.Outcome State Fault Refusal :=
  runNode (readView viewBatches) s

/-- READ_HOLDS (R197). -/
def execReadHolds (s : State) : Host.Outcome State Fault Refusal :=
  runNode (readView viewHolds) s

/-- READ_JOB (R197). -/
def execReadJob (s : State) : Host.Outcome State Fault Refusal :=
  runNode (readView viewJob) s

/-- READ_COUNTERS (R197). -/
def execReadCounters (s : State) : Host.Outcome State Fault Refusal :=
  runNode (readView viewCounters) s

/-- UNKNOWN_COMMAND (R197). -/
def execUnknownCommand (code : Nat) (s : State) : Host.Outcome State Fault Refusal :=
  runNode (unknownCommandByte code) s

/-- PLACE_NEW_JOB (R198). -/
def execPlaceNewJob (arg : Nat) (s : State) : Host.Outcome State Fault Refusal :=
  runNode (placeRequest .newJob arg) s

/-- PLACE_CLOSE_BATCH (R198). -/
def execPlaceCloseBatch (arg : Nat) (s : State) : Host.Outcome State Fault Refusal :=
  runNode (placeRequest .closeBatch arg) s

/-- PLACE_CLOSE_ROLL (R198). -/
def execPlaceCloseRoll (arg : Nat) (s : State) : Host.Outcome State Fault Refusal :=
  runNode (placeRequest .closeRoll arg) s

/-- PLACE_HOLD_ON (R198). -/
def execPlaceHoldOn (arg : Nat) (s : State) : Host.Outcome State Fault Refusal :=
  runNode (placeRequest .holdOn arg) s

/-- PLACE_CLEAR_HOLD (R198). -/
def execPlaceClearHold (arg : Nat) (s : State) : Host.Outcome State Fault Refusal :=
  runNode (placeRequest .clearHold arg) s

/-- PLACE_INVALID_REQUEST_KIND (R198). -/
def execPlaceInvalidRequestKind (_kind _arg : Nat) (s : State) : Host.Outcome State Fault Refusal :=
  runNode placeInvalid s

/-- SUPWARN_INACTIVE (R190). -/
def execSupwarnInactive (s : State) : Host.Outcome State Fault Refusal :=
  runNode supwarnInactive s

end Sys2Proof.Machine
end

