-- ==== Sys2Proof/Machine/TrackCommands.lean ====
section
/-! DEFINITION. The meanings of the commands: The repeat track, shade, batches and holds. -/

namespace Sys2Proof.Machine

/-- CYLINDER_INDEX (R48). -/
def execCylinderIndex (s : State) : Host.Outcome State Fault Refusal :=
  runNode cylinderIndex s

/-- SPLICE_DETECTION (R50). -/
def execSpliceDetection (s : State) : Host.Outcome State Fault Refusal :=
  runNode spliceDetection s

/-- TRACKER_WINDOW_END (R60). -/
def execTrackerWindowEnd (s : State) : Host.Outcome State Fault Refusal :=
  runNode trackerWindowEnd s

/-- ALIGN_COUNT_REACHED (R58). -/
def execAlignCountReached (by_ : Occasion) (s : State) : Host.Outcome State Fault Refusal :=
  runNode (namedCase alignHit by_) s

/-- MISS_COUNT_REACHED (R60). -/
def execMissCountReached (by_ : Occasion) (s : State) : Host.Outcome State Fault Refusal :=
  runNode (namedCase missHit by_) s

/-- LOST_HOLD_OFF_END (R61). -/
def execLostHoldOffEnd (s : State) : Host.Outcome State Fault Refusal :=
  runNode lostHoldOffEnd s

/-- SHADE_SAMPLE (R118). -/
def execShadeSample (codes : ShadeCodes) (s : State) : Host.Outcome State Fault Refusal :=
  runNode (shadeSample codes) s

/-- CALIBRATION_DUE (R121). -/
def execCalibrationDue (by_ : Occasion) (s : State) : Host.Outcome State Fault Refusal :=
  runNode (namedCase dueHit by_) s

/-- CALIBRATION_END (R122). -/
def execCalibrationEnd (s : State) : Host.Outcome State Fault Refusal :=
  runNode calibrationEnd s

/-- FORMING_COUNT_REACHED (R130). -/
def execFormingCountReached (by_ : Occasion) (s : State) : Host.Outcome State Fault Refusal :=
  runNode (namedCase formingHit by_) s

/-- DRIFT_RUN_REACHED (R131). -/
def execDriftRunReached (by_ : Occasion) (s : State) : Host.Outcome State Fault Refusal :=
  runNode (namedCase driftHit by_) s

/-- STEP_WATCH_FULL (R134). -/
def execStepWatchFull (by_ : Occasion) (s : State) : Host.Outcome State Fault Refusal :=
  runNode (namedCase watchHit by_) s

/-- QUIET_COUNT_REACHED (R146). -/
def execQuietCountReached (by_ : Occasion) (s : State) : Host.Outcome State Fault Refusal :=
  runNode (namedCase quietHit by_) s

end Sys2Proof.Machine
end

