-- ==== Sys2Proof/Machine/WebCommands.lean ====
section
/-! DEFINITION. The meanings of the commands: Web travel, marks and position triggers (chapters 1, 4 and 5 at the eye). -/

namespace Sys2Proof.Machine

/-- ENCODER_COUNT (R1). -/
def execEncoderCount (a b : Bool) (s : State) : Host.Outcome State Fault Refusal :=
  runNode (encoderCount a b) s

/-- WEB_REVERSED_ONSET (R3). -/
def execWebReversedOnset (a b : Bool) (s : State) : Host.Outcome State Fault Refusal :=
  runNode (namedCase reversedBegins (.encoder a b)) s

/-- WEB_REVERSED_END (R3). -/
def execWebReversedEnd (a b : Bool) (s : State) : Host.Outcome State Fault Refusal :=
  runNode (namedCase reversedEnds (.encoder a b)) s

/-- SPEED_INTERVAL (R4). -/
def execSpeedInterval (s : State) : Host.Outcome State Fault Refusal :=
  runNode speedInterval s

/-- STANDSTILL_TIMER (R5). -/
def execStandstillTimer (s : State) : Host.Outcome State Fault Refusal :=
  runNode standstillTimer s

/-- MARK_LEADING_EDGE (R8). -/
def execMarkLeadingEdge (s : State) : Host.Outcome State Fault Refusal :=
  runNode markLeadingEdge s

/-- MARK_TRAILING_EDGE (R8). -/
def execMarkTrailingEdge (s : State) : Host.Outcome State Fault Refusal :=
  runNode markTrailingEdge s

/-- REGISTER_WINDOW_END (R10). -/
def execRegisterWindowEnd (s : State) : Host.Outcome State Fault Refusal :=
  runNode registerWindowEnd s

/-- OPEN_RUN_REACHED (R87). -/
def execOpenRunReached (by_ : Occasion) (s : State) : Host.Outcome State Fault Refusal :=
  runNode (namedCase openRunHit by_) s

/-- LOCK_RUN_REACHED (R89). -/
def execLockRunReached (by_ : Occasion) (s : State) : Host.Outcome State Fault Refusal :=
  runNode (namedCase lockRunHit by_) s

/-- UNLOCK_RUN_REACHED (R90). -/
def execUnlockRunReached (by_ : Occasion) (s : State) : Host.Outcome State Fault Refusal :=
  runNode (namedCase unlockRunHit by_) s

/-- ABSENT_RUN_REACHED (R86). -/
def execAbsentRunReached (by_ : Occasion) (s : State) : Host.Outcome State Fault Refusal :=
  runNode (namedCase absentRunHit by_) s

/-- SETTLE_COUNT_ZERO (R97). -/
def execSettleCountZero (by_ : Occasion) (s : State) : Host.Outcome State Fault Refusal :=
  runNode (namedCase settleHit by_) s

/-- STEP_TRAIN_COMPLETION (R96). -/
def execStepTrainCompletion (s : State) : Host.Outcome State Fault Refusal :=
  runNode stepTrainCompletion s

/-- EMBOSS_INDEX (R11). -/
def execEmbossIndex (s : State) : Host.Outcome State Fault Refusal :=
  runNode embossIndex s

/-- TALLY_SPAN_END (R12). -/
def execTallySpanEnd (s : State) : Host.Outcome State Fault Refusal :=
  runNode tallySpanEnd s

/-- TALLY_SUSPENSION_END (R78). -/
def execTallySuspensionEnd (by_ : Occasion) (s : State) : Host.Outcome State Fault Refusal :=
  runNode (namedCase suspensionHit by_) s

/-- OUTSIDE_RUN_REACHED (R77). -/
def execOutsideRunReached (by_ : Occasion) (s : State) : Host.Outcome State Fault Refusal :=
  runNode (namedCase outsideHit by_) s

/-- INSIDE_RUN_REACHED (R77). -/
def execInsideRunReached (by_ : Occasion) (s : State) : Host.Outcome State Fault Refusal :=
  runNode (namedCase insideHit by_) s

/-- TRIGGER_FIRE (R16). -/
def execTriggerFire (s : State) : Host.Outcome State Fault Refusal :=
  runNode triggerFire s

/-- CUT_PULSE_END (R16). -/
def execCutPulseEnd (s : State) : Host.Outcome State Fault Refusal :=
  runNode cutPulseEnd s

/-- ACTUATION_COMPLETION (R103). -/
def execActuationCompletion (s : State) : Host.Outcome State Fault Refusal :=
  runNode actuationCompletion s

/-- COVERAGE_PASSAGE_END (R115). -/
def execCoveragePassageEnd (s : State) : Host.Outcome State Fault Refusal :=
  runNode coveragePassageEnd s

end Sys2Proof.Machine
end

