-- ==== Sys2Proof/Machine/Dispatch.lean ====
section
/-! DEFINITION. One arm for each command. -/

namespace Sys2Proof.Machine

/-- The effect of a command on everything but the queue. -/
def exec (i : Instr) (s : State) : Host.Outcome State Fault Refusal :=
  match i with
  | .encoderCount a b => Sys2Proof.Machine.execEncoderCount a b s
  | .webReversedOnset a b => Sys2Proof.Machine.execWebReversedOnset a b s
  | .webReversedEnd a b => Sys2Proof.Machine.execWebReversedEnd a b s
  | .speedInterval => Sys2Proof.Machine.execSpeedInterval s
  | .standstillTimer => Sys2Proof.Machine.execStandstillTimer s
  | .markLeadingEdge => Sys2Proof.Machine.execMarkLeadingEdge s
  | .markTrailingEdge => Sys2Proof.Machine.execMarkTrailingEdge s
  | .registerWindowEnd => Sys2Proof.Machine.execRegisterWindowEnd s
  | .openRunReached by_ => Sys2Proof.Machine.execOpenRunReached by_ s
  | .lockRunReached by_ => Sys2Proof.Machine.execLockRunReached by_ s
  | .unlockRunReached by_ => Sys2Proof.Machine.execUnlockRunReached by_ s
  | .absentRunReached by_ => Sys2Proof.Machine.execAbsentRunReached by_ s
  | .settleCountZero by_ => Sys2Proof.Machine.execSettleCountZero by_ s
  | .stepTrainCompletion => Sys2Proof.Machine.execStepTrainCompletion s
  | .embossIndex => Sys2Proof.Machine.execEmbossIndex s
  | .tallySpanEnd => Sys2Proof.Machine.execTallySpanEnd s
  | .tallySuspensionEnd by_ => Sys2Proof.Machine.execTallySuspensionEnd by_ s
  | .outsideRunReached by_ => Sys2Proof.Machine.execOutsideRunReached by_ s
  | .insideRunReached by_ => Sys2Proof.Machine.execInsideRunReached by_ s
  | .triggerFire => Sys2Proof.Machine.execTriggerFire s
  | .cutPulseEnd => Sys2Proof.Machine.execCutPulseEnd s
  | .actuationCompletion => Sys2Proof.Machine.execActuationCompletion s
  | .coveragePassageEnd => Sys2Proof.Machine.execCoveragePassageEnd s
  | .cylinderIndex => Sys2Proof.Machine.execCylinderIndex s
  | .spliceDetection => Sys2Proof.Machine.execSpliceDetection s
  | .trackerWindowEnd => Sys2Proof.Machine.execTrackerWindowEnd s
  | .alignCountReached by_ => Sys2Proof.Machine.execAlignCountReached by_ s
  | .missCountReached by_ => Sys2Proof.Machine.execMissCountReached by_ s
  | .lostHoldOffEnd => Sys2Proof.Machine.execLostHoldOffEnd s
  | .shadeSample codes => Sys2Proof.Machine.execShadeSample codes s
  | .calibrationDue by_ => Sys2Proof.Machine.execCalibrationDue by_ s
  | .calibrationEnd => Sys2Proof.Machine.execCalibrationEnd s
  | .formingCountReached by_ => Sys2Proof.Machine.execFormingCountReached by_ s
  | .driftRunReached by_ => Sys2Proof.Machine.execDriftRunReached by_ s
  | .stepWatchFull by_ => Sys2Proof.Machine.execStepWatchFull by_ s
  | .quietCountReached by_ => Sys2Proof.Machine.execQuietCountReached by_ s
  | .slotStart => Sys2Proof.Machine.execSlotStart s
  | .frameCheck bits => Sys2Proof.Machine.execFrameCheck bits s
  | .frameVoided sender => Sys2Proof.Machine.execFrameVoided sender s
  | .frameCutShort => Sys2Proof.Machine.execFrameCutShort s
  | .telegramDropped by_ => Sys2Proof.Machine.execTelegramDropped by_ s
  | .senderBitDifference inHeader => Sys2Proof.Machine.execSenderBitDifference inHeader s
  | .clashMarkDetected => Sys2Proof.Machine.execClashMarkDetected s
  | .lineStuck frameOnLine => Sys2Proof.Machine.execLineStuck frameOnLine s
  | .lineIdle => Sys2Proof.Machine.execLineIdle s
  | .voidRunLimit by_ => Sys2Proof.Machine.execVoidRunLimit by_ s
  | .rejoin by_ => Sys2Proof.Machine.execRejoin by_ s
  | .ownCompletionRunLimit by_ => Sys2Proof.Machine.execOwnCompletionRunLimit by_ s
  | .sendTimer => Sys2Proof.Machine.execSendTimer s
  | .listenTimer => Sys2Proof.Machine.execListenTimer s
  | .listenSilence => Sys2Proof.Machine.execListenSilence s
  | .resumeWindowClose => Sys2Proof.Machine.execResumeWindowClose s
  | .join o p => Sys2Proof.Machine.execJoin o p s
  | .resume o p => Sys2Proof.Machine.execResume o p s
  | .present o => Sys2Proof.Machine.execPresent o s
  | .down o cause => Sys2Proof.Machine.execDown o cause s
  | .undefinedCodeTelegram o p => Sys2Proof.Machine.execUndefinedCodeTelegram o p s
  | .requestNewJob o arg => Sys2Proof.Machine.execRequestNewJob o arg s
  | .requestCloseBatch o arg => Sys2Proof.Machine.execRequestCloseBatch o arg s
  | .requestCloseRoll o arg => Sys2Proof.Machine.execRequestCloseRoll o arg s
  | .requestHoldOn o arg => Sys2Proof.Machine.execRequestHoldOn o arg s
  | .requestClearHold o arg => Sys2Proof.Machine.execRequestClearHold o arg s
  | .jobTaken o p => Sys2Proof.Machine.execJobTaken o p s
  | .jobRefused o p => Sys2Proof.Machine.execJobRefused o p s
  | .repeat_ o p => Sys2Proof.Machine.execRepeat o p s
  | .register o p => Sys2Proof.Machine.execRegister o p s
  | .shade o p => Sys2Proof.Machine.execShade o p s
  | .batchOpened o p => Sys2Proof.Machine.execBatchOpened o p s
  | .batchFixed o p reference => Sys2Proof.Machine.execBatchFixed o p reference s
  | .holdSet o number causes => Sys2Proof.Machine.execHoldSet o number causes s
  | .holdClear o number causes => Sys2Proof.Machine.execHoldClear o number causes s
  | .roll o p => Sys2Proof.Machine.execRoll o p s
  | .labelled o number outcome => Sys2Proof.Machine.execLabelled o number outcome s
  | .peerSilenceW station => Sys2Proof.Machine.execPeerSilenceW station s
  | .peerSilence2W station => Sys2Proof.Machine.execPeerSilence2W station s
  | .supplyWarning => Sys2Proof.Machine.execSupplyWarning s
  | .supplyRecovery => Sys2Proof.Machine.execSupplyRecovery s
  | .powerReset => Sys2Proof.Machine.execPowerReset s
  | .pinReset low => Sys2Proof.Machine.execPinReset low s
  | .configurationLoadEnd image => Sys2Proof.Machine.execConfigurationLoadEnd image s
  | .arriveEdge high => Sys2Proof.Machine.execArriveEdge high s
  | .arrival => Sys2Proof.Machine.execArrival s
  | .sensorClear => Sys2Proof.Machine.execSensorClear s
  | .readyFall => Sys2Proof.Machine.execReadyFall s
  | .readyRise => Sys2Proof.Machine.execReadyRise s
  | .printTimer => Sys2Proof.Machine.execPrintTimer s
  | .readyTimer => Sys2Proof.Machine.execReadyTimer s
  | .applyPulseEnd => Sys2Proof.Machine.execApplyPulseEnd s
  | .rollDeadline number => Sys2Proof.Machine.execRollDeadline number s
  | .readNode => Sys2Proof.Machine.execReadNode s
  | .readPeers => Sys2Proof.Machine.execReadPeers s
  | .readTrack number => Sys2Proof.Machine.execReadTrack number s
  | .readRolls => Sys2Proof.Machine.execReadRolls s
  | .readBatches => Sys2Proof.Machine.execReadBatches s
  | .readHolds => Sys2Proof.Machine.execReadHolds s
  | .readJob => Sys2Proof.Machine.execReadJob s
  | .readCounters => Sys2Proof.Machine.execReadCounters s
  | .unknownCommand code => Sys2Proof.Machine.execUnknownCommand code s
  | .placeNewJob arg => Sys2Proof.Machine.execPlaceNewJob arg s
  | .placeCloseBatch arg => Sys2Proof.Machine.execPlaceCloseBatch arg s
  | .placeCloseRoll arg => Sys2Proof.Machine.execPlaceCloseRoll arg s
  | .placeHoldOn arg => Sys2Proof.Machine.execPlaceHoldOn arg s
  | .placeClearHold arg => Sys2Proof.Machine.execPlaceClearHold arg s
  | .placeInvalidRequestKind kind arg => Sys2Proof.Machine.execPlaceInvalidRequestKind kind arg s
  | .supwarnInactive => Sys2Proof.Machine.execSupwarnInactive s

end Sys2Proof.Machine
end

