-- ==== Sys2Proof/Safety.lean ====
section
/-! DEFINITION. What holds in every state the node reaches: the bounds that the rules give for its stores and counts. Each is
decidable, holds at `State.reset`, and is kept by every step. -/

namespace Sys2Proof.Machine

/-- R31: the transmit queue holds at most 16 telegrams. -/
def queueBounded (n : Node) : Prop := n.link.queue.length ≤ 16

/-- R2, R4: the reverse debt is 0 to 16,777,215 and the speed 0 to 65,535. -/
def travelBounded (n : Node) : Prop := n.travel.debt ≤ 16777215 ∧ n.travel.speed ≤ 65535

/-- Section 11.2: the Peer Table holds one entry for each station number from 1 to 31. -/
def peersComplete (n : Node) : Prop := n.peers.length = 31

/-- R42: the repeat table holds at most 512 records. -/
def tableBounded (n : Node) : Prop := n.track.table.length ≤ 512

/-- R15: the Trigger Table holds at most 8 entries. -/
def triggersBounded (n : Node) : Prop := n.trig.entries.length ≤ 8

/-- R8: while the web stands in reverse debt no mark is in progress. -/
def noMarkInDebt (n : Node) : Prop := 0 < n.travel.debt → n.marks.mark = none

/-- R50, R171: the splice queue of the KEY holds at most 4 arrivals, and the roll list at most 16 entries. -/
def storesBounded (n : Node) : Prop := n.track.splices.length ≤ 4 ∧ n.roll.list.length ≤ 16

end Sys2Proof.Machine
end

