-- ==== Sys2Proof/Certificates/Slice0/Obligations.lean ====
section
/-! DEFINITION. The statements about the node, one definition each. -/

namespace Sys2Proof.Claims

open Sys2Proof.Machine

/-- The command completes, the queue is left, and the node becomes `n`. -/
def Gives (c : Instr) (s : State) (n : Node) : Prop := exec c s = .next { s with node := n }

/-- The command completes, the queue is left, and `p` holds of the node it leaves. -/
def After (c : Instr) (s : State) (p : Node → Prop) : Prop := ∃ n, Gives c s n ∧ p n

/-- The image in force is `c`. -/
abbrev Runs (s : State) (c : Config) : Prop := s.node.image = some c

/-- The node is JOINED or BENCHED, sends nothing, did not void the frame on the line, and the frame is another station's. -/
abbrev HearsAnother (o : Origin) (s : State) : Prop :=
  appliesFrames s.node = true ∧ s.node.link.sending = false ∧ s.node.link.drove = false ∧ wfStation o.sender = true ∧
    o.sender ≠ (cfg s.node).station ∧ s.node.peers.length = 31

/-- The command of a frame that completes with this telegram. -/
def frameOf (o : Origin) : Telegram → Instr
  | .join p => .join o p
  | .resume p => .resume o p
  | .present => .present o
  | .down c => .down o c
  | .request .newJob a => .requestNewJob o a
  | .request .closeBatch a => .requestCloseBatch o a
  | .request .closeRoll a => .requestCloseRoll o a
  | .request .holdOn a => .requestHoldOn o a
  | .request .clearHold a => .requestClearHold o a
  | .jobTaken p => .jobTaken o p
  | .jobRefused p => .jobRefused o p
  | .repeat_ p => .repeat_ o p
  | .register p => .register o p
  | .shade p => .shade o p
  | .batchOpened p => .batchOpened o p
  | .batchFixed p t => .batchFixed o p t
  | .holdSet x c => .holdSet o x c
  | .holdClear x c => .holdClear o x c
  | .roll p => .roll o p
  | .labelled x out => .labelled o x out
  | .undefined p => .undefinedCodeTelegram o p

/-- The origin of a frame of the node's own without the restate flag. -/
def ownOrigin (s : State) : Origin := { sender := (cfg s.node).station, restate := false }

/-- The JOINED node has this telegram, offered by this block, on the line, and no offer of its waits after a refusal. -/
def Sends (s : State) (t : Telegram) (by_ : OfferBy) : Prop :=
  s.node.st = .joined ∧ s.node.link.sending = true ∧ s.node.link.refusedOffers = [] ∧
    s.node.link.queue.head? = some { telegram := t, restate := false, offerBy := by_ }

end Sys2Proof.Claims

open Sys2Proof Sys2Proof.Machine Sys2Proof.Claims

/-! ### The queue of commands -/

/-- The command at the front of the queue runs on the state with the queue's rest. -/
def Obligations.StepRunsTheFrontCommand : Prop :=
  ∀ (c : Instr) (rest : List Instr) (s : State),
    s.pending = c :: rest → step s = exec c { s with pending := rest }

/-- With an empty queue a millisecond passes, the model's own choice (log entries 2 and 3): the time base, every running timer,
the step trains, the block on LBLD and the quiet of SUPWARN move by one; a clash mark is over (log entry 49); the line's silence
grows where the node tracks a line that is not stuck and on which it sends nothing (log entry 19); in a JOINED or BENCHED node
the silence of each other station that is not ABSENT grows, a LOST one's too (log entry 18). Nothing else changes. -/
def Obligations.EmptyQueuePassesAMillisecond : Prop :=
  ∀ s : State, s.pending = [] →
    ∃ n, step s = .next { s with node := n } ∧
      n = { s.node with
        now := s.node.now + 1,
        pins := { s.node.pins with supwarnQuiet := if s.node.pins.supwarn then 0 else min 100 (s.node.pins.supwarnQuiet + 1) },
        travel := { s.node.travel with intervalLeft := s.node.travel.intervalLeft - 1,
                                       standstill := s.node.travel.standstill.map (· - 1) },
        trig := { s.node.trig with cut := s.node.trig.cut.map (· - 1) },
        nip := { s.node.nip with actuation := s.node.nip.actuation.map (· - 1) },
        loop := { s.node.loop with train := s.node.loop.train.map fun t => { t with elapsed := t.elapsed + 1 },
                                   tail := s.node.loop.tail.map fun t => { t with elapsed := t.elapsed + 1 } },
        label := { s.node.label with
          debounce := s.node.label.debounce.map (· - 1), printTimer := s.node.label.printTimer.map (· - 1),
          readyTimer := s.node.label.readyTimer.map (· - 1), applyTimer := s.node.label.applyTimer.map (· - 1),
          sending := match s.node.label.sending with
            | none => none
            | some (b, t) => if t < 31 then some (b, t + 1) else none },
        link := { s.node.link with
          sendElapsed := s.node.link.sendElapsed.map (· + 1), listen := s.node.link.listen.map (· - 1),
          resume := s.node.link.resume.map (· - 1), clashMark := 0,
          silentMs := if s.node.link.stuck ∨ s.node.link.sending ∨ tracksW s.node = false then 0
                      else s.node.link.silentMs + 1 },
        peers := n.peers } ∧
      n.peers.length = s.node.peers.length ∧
      ∀ k, 1 ≤ k → k ≤ s.node.peers.length →
        let p := peerAt s.node k
        peerAt n k = if appliesFrames s.node = true ∧ k ≠ (cfg s.node).station ∧ p.state ≠ .absent
                     then { p with silence := p.silence + 1 } else p

/-- No command stops the node: each gives a next state and leaves the queue, and so does each step. -/
def Obligations.NoCommandStopsTheNode : Prop :=
  (∀ (c : Instr) (s : State), ∃ n, Gives c s n) ∧ ∀ s : State, ∃ t, step s = .next t

/-- A row that names a moment inside another step runs that step where it brings the moment about, and leaves the node
elsewhere (log entry 1). -/
def Obligations.NamedMomentsRunTheirStep : Prop :=
  ∀ (by_ : Occasion) (s : State),
    let t := occur by_ s.node
    Gives (.openRunReached by_) s (if openRunHit by_ s.node then t else s.node) ∧
    Gives (.lockRunReached by_) s (if lockRunHit by_ s.node then t else s.node) ∧
    Gives (.unlockRunReached by_) s (if unlockRunHit by_ s.node then t else s.node) ∧
    Gives (.absentRunReached by_) s (if absentRunHit by_ s.node then t else s.node) ∧
    Gives (.settleCountZero by_) s (if settleHit by_ s.node then t else s.node) ∧
    Gives (.tallySuspensionEnd by_) s (if suspensionHit by_ s.node then t else s.node) ∧
    Gives (.outsideRunReached by_) s (if outsideHit by_ s.node then t else s.node) ∧
    Gives (.insideRunReached by_) s (if insideHit by_ s.node then t else s.node) ∧
    Gives (.alignCountReached by_) s (if alignHit by_ s.node then t else s.node) ∧
    Gives (.missCountReached by_) s (if missHit by_ s.node then t else s.node) ∧
    Gives (.calibrationDue by_) s (if dueHit by_ s.node then t else s.node) ∧
    Gives (.formingCountReached by_) s (if formingHit by_ s.node then t else s.node) ∧
    Gives (.driftRunReached by_) s (if driftHit by_ s.node then t else s.node) ∧
    Gives (.stepWatchFull by_) s (if watchHit by_ s.node then t else s.node) ∧
    Gives (.quietCountReached by_) s (if quietHit by_ s.node then t else s.node) ∧
    Gives (.telegramDropped by_) s (if dropHit by_ s.node then t else s.node) ∧
    Gives (.voidRunLimit by_) s (if voidRunHit by_ s.node then t else s.node) ∧
    Gives (.rejoin by_) s (if rejoinHit by_ s.node then t else s.node) ∧
    Gives (.ownCompletionRunLimit by_) s (if ownRunHit by_ s.node then t else s.node)

/-! ### Web travel -/

/-- A sample in which both lines or none changed leaves all but the levels; a forward count turns the numerator into ticks
that pay the debt first and then advance the position; a reverse count turns it into debt. WEB_REVERSED follows. A count that
advances leaves the web MOVING with the standstill timer at 200 ms; any other leaves both (R5). No other block is touched but
those that watch the position. -/
def Sys2Proof.Claims.CountsMoveTheWeb : Prop :=
  ∀ (a b : Bool) (s : State) (c : Config), Runs s c → travelRole s.node = true → 0 < c.denominator →
    s.node.travel.debt ≤ 16777215 → s.node.travel.remainder.natAbs < c.denominator →
    After (.encoderCount a b) s fun n =>
      let t := s.node.travel
      let den : Int := c.denominator
      n.pins = { s.node.pins with encA := a, encB := b } ∧
      (validCount s.node.pins a b = false → n = { s.node with pins := n.pins }) ∧
      (validCount s.node.pins a b = true → forwardCount c s.node.pins a b = true →
        ∃ k : Nat, t.remainder + c.numerator = k * den + n.travel.remainder ∧ n.travel.remainder < den ∧
          (0 < k → 0 ≤ n.travel.remainder) ∧ n.travel.debt = t.debt - k ∧
          n.travel.position = t.position + BitVec.ofNat 32 (k - t.debt) ∧
          n.travel.webReversed = (t.webReversed && (decide (t.debt = 0) || decide (k < t.debt))) ∧
          n.travel.advances = t.advances + (k - t.debt) ∧
          (t.debt < k → n.travel.motion = .moving ∧ n.travel.standstill = some 200) ∧
          (k ≤ t.debt → n.travel.motion = t.motion ∧ n.travel.standstill = t.standstill)) ∧
      (validCount s.node.pins a b = true → forwardCount c s.node.pins a b = false →
        ∃ k : Nat, t.remainder - c.numerator = n.travel.remainder - k * den ∧ -den < n.travel.remainder ∧
          (0 < k → n.travel.remainder ≤ 0) ∧ n.travel.debt = min 16777215 (t.debt + k) ∧
          n.travel.position = t.position ∧ n.travel.motion = t.motion ∧ n.travel.standstill = t.standstill ∧
          n.travel.webReversed = (t.webReversed || (decide (t.debt < n.travel.debt) && decide (c.backlash < n.travel.debt)))) ∧
      n = { s.node with pins := n.pins, travel := n.travel, marks := n.marks, track := n.track, shade := n.shade,
                        nip := n.nip, hold := n.hold, link := n.link, port := n.port }

/-- The direction of a count: with the sense A_LEADS the phase order in which ENCA leads ENCB means forward web travel, with
B_LEADS the other; that A leads B in the order 00, 10, 11, 01 is the model's choice (log entry 10). -/
def Sys2Proof.Claims.TheSenseSetsTheDirection : Prop :=
  ∀ (c : Config) (p : Pins) (a b : Bool), validCount p a b = true →
    let leads := decide ((p.encA, p.encB, a, b) ∈
      [(false, false, true, false), (true, false, true, true), (true, true, false, true), (false, true, false, false)])
    (c.encoderSense = .aLeads → forwardCount c p a b = leads) ∧ (c.encoderSense = .bLeads → forwardCount c p a b = !leads)

/-- An encoder count (section Travel Unit): its direction, and what it does to the web. -/
def Obligations.EncoderCountMovesTheWeb : Prop :=
  Claims.CountsMoveTheWeb ∧ Claims.TheSenseSetsTheDirection

/-- WEB_REVERSED_ONSET and WEB_REVERSED_END run the whole count that makes the factor active or inactive, as ENCODER_COUNT
does there: the model's choice (log entry 1). -/
def Obligations.WebReversedRowsRunTheCount : Prop :=
  ∀ (a b : Bool) (s : State) (c : Config), Runs s c → travelRole s.node = true → 0 < c.denominator →
    validCount s.node.pins a b = true →
    (forwardCount c s.node.pins a b = false → s.node.travel.webReversed = false → s.node.travel.debt ≤ c.backlash →
      c.backlash < s.node.travel.debt + ((c.numerator : Int) - s.node.travel.remainder).toNat / c.denominator →
      c.backlash < 16777215 →
      After (.webReversedOnset a b) s fun n =>
        n.travel.webReversed = true ∧ n.travel.position = s.node.travel.position ∧ c.backlash < n.travel.debt ∧
          Gives (.encoderCount a b) s n) ∧
    (forwardCount c s.node.pins a b = true → s.node.travel.webReversed = true → 0 < s.node.travel.debt →
      s.node.travel.debt ≤ ((c.numerator : Int) + s.node.travel.remainder).toNat / c.denominator →
      After (.webReversedEnd a b) s fun n =>
        n.travel.webReversed = false ∧ n.travel.debt = 0 ∧ Gives (.encoderCount a b) s n)

/-- R3, tick by tick: a reverse tick that raises the debt above the backlash limit makes WEB_REVERSED active and no other
tick does; the forward tick that pays the last of the debt ends it, without an advance, and no other tick does. With a
limit of 0 any reverse tick makes it active. It is hold factor bit 3. A reset makes it inactive, a rejoin keeps it. -/
def Obligations.WebReversedFollowsTheDebt : Prop :=
  (∀ n : Node, n.travel.debt < 16777215 →
    (reverseTick n).travel.debt = n.travel.debt + 1 ∧
    (reverseTick n).travel.webReversed = (n.travel.webReversed || decide ((cfg n).backlash < n.travel.debt + 1)) ∧
    ((cfg n).backlash = 0 → (reverseTick n).travel.webReversed = true)) ∧
  (∀ n : Node, 0 < n.travel.debt →
    (forwardTick n).travel.debt = n.travel.debt - 1 ∧ (forwardTick n).travel.position = n.travel.position ∧
    (forwardTick n).travel.webReversed = (n.travel.webReversed && decide (n.travel.debt ≠ 1))) ∧
  (∀ n : Node, n.travel.debt = 0 → (forwardTick n).travel.webReversed = n.travel.webReversed) ∧
  (∀ n : Node, 16777215 ≤ n.travel.debt → reverseTick n = n) ∧
  (∀ n : Node, (factorInputs n).getLsbD 3 = n.travel.webReversed) ∧
  (∀ s : State, After .powerReset s fun n => n.travel.webReversed = false) ∧
  (∀ s : State, After (.pinReset true) s fun n => n.travel.webReversed = false) ∧
  (∀ s : State, s.node.st = .down → s.node.pins.supwarn = false → 100 ≤ s.node.pins.supwarnQuiet →
    s.node.pins.resetLow = false → After .supplyRecovery s fun n => n.travel.webReversed = false) ∧
  (∀ n : Node, (rejoinNode n).travel.webReversed = n.travel.webReversed)

/-- At the end of each 10 ms interval (R4) the speed becomes the interval's count of advances, held at 65,535, and a new
interval begins, counted from the command (the model's choice, log entry 3); an empty step brings the end of the interval
nearer (the model's choice, log entry 2); a forward tick is counted when it is an advance and not when it pays debt, a
reverse tick never; the NODE view carries the speed in bytes 24 and 25 (Table 58). -/
def Sys2Proof.Claims.IntervalsTakeTheAdvances : Prop :=
  (∀ s : State, s.node.travel.intervalLeft = 0 →
    Gives .speedInterval s { s.node with travel := { s.node.travel with
      speed := if 65535 < s.node.travel.advances then 65535 else s.node.travel.advances, advances := 0, intervalLeft := 10 } }) ∧
  (∀ n : Node, (forwardTick n).travel.advances = n.travel.advances + (if n.travel.debt = 0 then 1 else 0)) ∧
  (∀ n : Node, (reverseTick n).travel.advances = n.travel.advances) ∧
  (∀ n : Node, (tick n).travel.intervalLeft = n.travel.intervalLeft - 1 ∧ (tick n).travel.advances = n.travel.advances) ∧
  (∀ n : Node, ((viewNode n).drop 24).take 2 = known (be2 n.travel.speed))

/-- A repeat boundary (R6) becomes the last one. With a last boundary and time passed since it, the repeat speed is the
difference of the positions by 10 over the milliseconds, and becomes the last repeat speed. SPEED_STEP is active when the
comparison holds and finds a difference above the threshold in percent of the last speed, and inactive at every other
boundary. It is hold factor bit 2. An issue of the KEY is such a boundary. -/
def Sys2Proof.Claims.SpeedStepsFollowTheThreshold : Prop :=
  (∀ (n : Node) (edge : Pos) (time : Nat) (compare : Bool),
    let t := (boundary n edge time compare).travel
    t.lastBoundary = some (edge, time) ∧
    (n.travel.lastBoundary = none → t.lastSpeed = n.travel.lastSpeed ∧ t.speedStep = false) ∧
    (∀ (p : Pos) (t0 : Nat), n.travel.lastBoundary = some (p, t0) → t0 < time →
      let v := (posDiff edge p).toNat * 10 / (time - t0)
      t.lastSpeed = some v ∧
      (∀ u, n.travel.lastSpeed = some u → 0 < u → compare = true →
        t.speedStep = decide ((cfg n).speedThreshold * u < 100 * ((v : Int) - u).natAbs)) ∧
      (n.travel.lastSpeed = none ∨ n.travel.lastSpeed = some 0 ∨ compare = false → t.speedStep = false))) ∧
  (∀ n : Node, (factorInputs n).getLsbD 2 = n.travel.speedStep) ∧
  (∀ (s : State) (p q : Pos) (t0 u x : Nat), isRole s.node .key = true → s.node.track.running = true →
    s.node.track.prevIndex = some p → s.node.track.nextRepeat = some x → 1250 ≤ (s.node.travel.position - p).toNat →
    s.node.travel.lastBoundary = some (q, t0) → t0 < s.node.now → s.node.travel.lastSpeed = some u → 0 < u →
    After .cylinderIndex s fun n =>
      let v := (posDiff s.node.travel.position q).toNat * 10 / (s.node.now - t0)
      n.travel.lastBoundary = some (s.node.travel.position, s.node.now) ∧ n.travel.lastSpeed = some v ∧
      n.travel.speedStep = decide ((cfg s.node).speedThreshold * u < 100 * ((v : Int) - u).natAbs))

/-- The speed of each interval, and SPEED_STEP at the repeat boundaries. -/
def Obligations.SpeedIntervalTakesTheAdvances : Prop :=
  Claims.IntervalsTakeTheAdvances ∧ Claims.SpeedStepsFollowTheThreshold

/-- The standstill timer expires: the motion state is STANDSTILL and the timer stopped; a MOVING web at the EMBOSS node
also opens the nip and cancels an armed regular close: tag 1 leaves the Trigger Table (sections Travel Unit and 6). -/
def Obligations.StandstillTimerStopsTheWeb : Prop :=
  ∀ s : State, s.node.travel.standstill = some 0 →
    After .standstillTimer s fun n =>
      n.travel = { s.node.travel with standstill := none, motion := .standstill } ∧
      (isRole s.node .emboss = false ∨ s.node.travel.motion = .standstill → n = { s.node with travel := n.travel }) ∧
      (isRole s.node .emboss = true → s.node.travel.motion = .moving →
        n.nip.regular = false ∧
        n.nip.state = (match s.node.nip.state with | .opened => .opened | _ => .opening) ∧
        (s.node.nip.state = .closed ∨ s.node.nip.state = .closing → n.nip.actuation = some (cfg s.node).actuationTime) ∧
        (s.node.nip.state = .opening → n.nip.waitingClose = false) ∧
        n.trig.cut = s.node.trig.cut ∧
        n.trig.entries = (if s.node.nip.regular then s.node.trig.entries.filter (fun x => decide (x.tag ≠ 1))
          else s.node.trig.entries) ∧
        n = { s.node with travel := n.travel, nip := n.nip, trig := n.trig })

/-! ### Marks -/

/-- Edges of the EYE line (section Mark Reader): the dark edge notes the mark in progress when no debt stands; the light
edge classifies it by its width. This statement gives the marks that are not KEY marks: one begun in a tally span goes
nowhere, a COLOUR mark enters the history of the PRINT role and pushes out the oldest of four, any other width is stray.
Edges during debt change the level only. -/
def Obligations.EyeEdgesMakeMarks : Prop :=
  ∀ s : State, eyeRole s.node = true →
    (s.node.pins.eyeDark = false → s.node.travel.debt = 0 →
      After .markLeadingEdge s fun n =>
        (∃ m, n.marks = { s.node.marks with mark := some m } ∧ m.edge = s.node.travel.position ∧ m.time = s.node.now ∧
          (s.node.marks.span = none → m.inSpan = false)) ∧
        n = { s.node with marks := n.marks, pins := { s.node.pins with eyeDark := true } }) ∧
    (s.node.pins.eyeDark = false → 0 < s.node.travel.debt →
      Gives .markLeadingEdge s { s.node with pins := { s.node.pins with eyeDark := true } }) ∧
    (s.node.pins.eyeDark = true → (s.node.marks.mark = none ∨ 0 < s.node.travel.debt) →
      Gives .markTrailingEdge s { s.node with pins := { s.node.pins with eyeDark := false } }) ∧
    (∀ m : Mark, s.node.pins.eyeDark = true → s.node.travel.debt = 0 → s.node.marks.mark = some m →
      let w := posDiff s.node.travel.position m.edge
      ¬(40 ≤ w ∧ w ≤ 60) →
      (m.inSpan = true → After .markTrailingEdge s fun n =>
        n.marks = { s.node.marks with mark := none } ∧
        n = { s.node with marks := n.marks, pins := n.pins, hold := n.hold, link := n.link, port := n.port }) ∧
      (m.inSpan = false → 15 ≤ w ∧ w ≤ 30 → isRole s.node .print = false → After .markTrailingEdge s fun n =>
        n.marks = { s.node.marks with mark := none }) ∧
      (m.inSpan = false → 15 ≤ w ∧ w ≤ 30 → isRole s.node .print = true → s.node.marks.window = none →
        After .markTrailingEdge s fun n =>
          let h := s.node.marks.history ++ [{ edge := m.edge, taken := false }]
          n.marks.history = (if h.length ≤ 4 then h else h.tail) ∧
          n.marks.stray = s.node.marks.stray +
            (if 4 < h.length ∧ h.head?.map (·.taken) = some false then 1 else 0)) ∧
      (m.inSpan = false → ¬(15 ≤ w ∧ w ≤ 30) → After .markTrailingEdge s fun n =>
        n.marks = { s.node.marks with mark := none, stray := s.node.marks.stray + 1 }))

/-- The register window's result (section Mark Reader): with the window end passed, the window closes and the Register Loop
holds the error of the best candidate for the window's repeat, absent without one or for a synthesised mark. Before the
window end, and with no candidate, nothing but the Hold Unit's own settling happens. -/
def Sys2Proof.Claims.RegisterWindowEndsInAResult : Prop :=
  ∀ (s : State) (w : RegWindow), s.node.marks.window = some w →
    ((captureRange (cfg s.node) : Int) ≤ posDiff s.node.travel.position w.expected →
      After .registerWindowEnd s fun n =>
        n.marks.window = none ∧ n.loop.lastErrorRepeat = some w.number ∧
        n.loop.lastError = (if w.synthesised then none else w.best.map fun b => posDiff b w.expected) ∧
        n = { s.node with marks := n.marks, loop := n.loop, nip := n.nip, hold := n.hold, link := n.link, port := n.port }) ∧
    (posDiff s.node.travel.position w.expected < (captureRange (cfg s.node) : Int) → w.best = none →
      After .registerWindowEnd s fun n => n = { s.node with hold := n.hold, link := n.link, port := n.port })

/-- EMBOSS_INDEX with no window open: the pulse is the newest of the last four; at another role the row changes nothing. -/
def Sys2Proof.Claims.EmbossIndexEntersTheHistory : Prop :=
  ∀ s : State,
    (isRole s.node .emboss = true → s.node.marks.window = none → s.node.marks.indexes.length ≤ 4 →
      After .embossIndex s fun n =>
        n.marks.indexes = (if s.node.marks.indexes.length < 4 then s.node.marks.indexes else s.node.marks.indexes.tail) ++
          [{ edge := s.node.travel.position, taken := false }] ∧
        n.marks.stray = s.node.marks.stray ∧
        n = { s.node with marks := n.marks, hold := n.hold, link := n.link, port := n.port }) ∧
    (isRole s.node .emboss = false → Gives .embossIndex s s.node)

/-- The register window of a loop's role and the index pulses of the emboss roll: REGISTER_WINDOW_END and EMBOSS_INDEX. -/
def Obligations.RegisterWindowsAndIndexPulses : Prop :=
  Claims.RegisterWindowEndsInAResult ∧ Claims.EmbossIndexEntersTheHistory

/-- TALLY_SPAN_END: the span that is over gives a read: the code of cells 0 to 7 when no debt rose in it, nine cells were
sampled, the number of dark ones is odd and the code is not 0, and otherwise a failed read. The read becomes the newer of
the last two, and the observed tally follows Table 9 once two reads are held. A span not yet over stays. -/
def Sys2Proof.Claims.TallySpanEndFollowsTable9 : Prop :=
  ∀ (s : State) (sp : TallySpan), s.node.marks.span = some sp →
    (spanOver (cfg s.node) sp s.node.travel.position = false → Gives .tallySpanEnd s s.node) ∧
    (spanOver (cfg s.node) sp s.node.travel.position = true →
      After .tallySpanEnd s fun n =>
        let code := bitsValue (sp.cells.take 8)
        let good := !sp.failed && decide (sp.cells.length = 9) && decide (sp.cells.count true % 2 = 1) && decide (code ≠ 0)
        let read := if good then some code else none
        n.marks.span = none ∧
        (s.node.marks.reads = [] → n.marks.reads = [read] ∧ n.marks.observed = s.node.marks.observed) ∧
        (∀ r, s.node.marks.reads = [r] ∨ (∃ q, s.node.marks.reads = [q, r]) →
          n.marks.reads = [r, read] ∧
          n.marks.observed =
            (match s.node.marks.observed, r, read with
             | none, some j, some k => if j = k then some k else none
             | none, _, _ => none
             | some v, some j, some k => if j = k then some k else some v
             | some v, none, some k => if k = v then some v else none
             | some v, _, none => some v)) ∧
        n = { s.node with marks := n.marks, job := n.job, hold := n.hold, link := n.link, port := n.port })

/-- TALLY_SUSPENSION_END: the read of a span begun after the switch that lowers the suspension count to 0 makes the tally
check at once: the tally part says whether an observed code differs from the current pattern. -/
def Sys2Proof.Claims.TallySuspensionEndsInACheck : Prop :=
  ∀ (s : State) (sp : TallySpan), s.node.marks.span = some sp → sp.stale = false → s.node.job.suspension = 1 →
    spanOver (cfg s.node) sp s.node.travel.position = true →
    After (.tallySuspensionEnd .tallySpanEnd) s fun n =>
      n.job.suspension = 0 ∧ n.job.current = s.node.job.current ∧
      n.job.tallyPart = (match n.marks.observed, s.node.job.current with
        | some v, some j => decide (v ≠ j.pattern)
        | _, _ => false)

/-- Tally reads: TALLY_SPAN_END and TALLY_SUSPENSION_END. -/
def Obligations.TallyReadsFollowTable9 : Prop :=
  Claims.TallySpanEndFollowsTable9 ∧ Claims.TallySuspensionEndsInACheck

/-! ### Triggers -/

/-- TRIGGER_FIRE: the entries due at the local position leave the front of the table, each once; a CUT among them starts
a pulse of 20 ms; with none due only the Hold Unit settles. CUT_PULSE_END ends the pulse when its 20 ms are over. -/
def Sys2Proof.Claims.TriggerFireTakesTheDueEntries : Prop :=
  (∀ s : State,
    let due := fun (e : TriggerEntry) => passed s.node.travel.position e.position
    After .triggerFire s fun n =>
      n.trig.entries = s.node.trig.entries.dropWhile due ∧
      n.trig.cut = (if (s.node.trig.entries.takeWhile due).any (fun e => decide (e.output = .cut)) then some 20
        else s.node.trig.cut) ∧
      n = { s.node with trig := n.trig, nip := n.nip, roll := n.roll, hold := n.hold, link := n.link, port := n.port } ∧
      (s.node.trig.entries.takeWhile due = [] → n = { s.node with hold := n.hold, link := n.link, port := n.port })) ∧
  (∀ s : State, s.node.trig.cut = some 0 → Gives .cutPulseEnd s { s.node with trig := { s.node.trig with cut := none } }) ∧
  (∀ s : State, s.node.trig.cut ≠ some 0 → Gives .cutPulseEnd s s.node)

/-- Arm requests (section Trigger Table): LATE at a passed position, with no entry made; else a held tag is re-armed; else
an entry is made while fewer than 8 stand; else REFUSED. The entries stay in position order as they were inserted; that a
LATE request leaves an older entry of its tag is the model's choice (log entry 43). A cancel takes the entry of its tag away
and answers CANCELLED, or NOT_FOUND when there is none. -/
def Sys2Proof.Claims.ArmRequestsAreAnswered : Prop :=
  (∀ (n : Node) (out : TriggerOutput) (p : Pos) (tag : Nat),
    let held := n.trig.entries.any fun x => decide (x.tag = tag)
    (passed n.travel.position p = true →
      (armTrigger n out p tag).2 = .late ∧ (armTrigger n out p tag).1.trig.entries = n.trig.entries ∧
      (armTrigger n out p tag).1.trig.cut = (if out = .cut then some 20 else n.trig.cut)) ∧
    (passed n.travel.position p = false → (held = true ∨ n.trig.entries.length < 8) →
      (armTrigger n out p tag).2 = .armed ∧
      (armTrigger n out p tag).1 = { n with trig := { n.trig with
        entries := insertTrigger { output := out, position := p, tag := tag } (n.trig.entries.filter fun x => decide (x.tag ≠ tag)) } }) ∧
    (passed n.travel.position p = false → held = false → 8 ≤ n.trig.entries.length →
      armTrigger n out p tag = (n, .refused))) ∧
  (∀ (n : Node) (tag : Nat),
    (cancelTrigger n tag).1.trig.entries = n.trig.entries.filter (fun x => decide (x.tag ≠ tag)) ∧
    (cancelTrigger n tag).1 = { n with trig := (cancelTrigger n tag).1.trig } ∧
    ((∃ e ∈ n.trig.entries, e.tag = tag) → (cancelTrigger n tag).2 = .cancelled) ∧
    ((∀ e ∈ n.trig.entries, e.tag ≠ tag) → (cancelTrigger n tag).2 = .notFound))

namespace Sys2Proof.Claims

/-- One entry, the first, is due. -/
def FiresAlone (s : State) (e : TriggerEntry) : Prop :=
  ∃ rest, s.node.trig.entries = e :: rest ∧ passed s.node.travel.position e.position = true ∧
    ∀ x, rest.head? = some x → passed s.node.travel.position x.position = false

end Sys2Proof.Claims

/-- A CUT that fires alone with a piece open (R165): the piece closes before the entry's cut repeat at the position of the
entry, and joins the pieces awaiting completion with its grade; a new piece opens there; the entry leaves the plan. -/
def Sys2Proof.Claims.CutsCloseAndOpenPieces : Prop :=
  ∀ (s : State) (e : TriggerEntry) (pe : PlanEntry) (a : Arming) (p : OpenPiece) (next : Nat), FiresAlone s e →
    e.output = .cut → s.node.roll.plan.find? (fun x => decide (x.arming.map (·.tag) = some e.tag)) = some pe →
    pe.arming = some a → s.node.roll.piece = some p → s.node.roll.nextRoll = some next →
    After .triggerFire s fun n =>
      let count := fwd repeatRange p.first pe.cut
      n.roll.piece = some { number := next, kind := pe.kind, first := pe.cut, opening := e.position, job := a.job,
                            pattern := a.pattern, full := pe.full, cutMoved := pe.moved, batchLate := pe.late } ∧
      n.roll.nextRoll = some (if next < 999999 then next + 1 else 1) ∧
      n.roll.plan = s.node.roll.plan.filter (fun x => decide (x.cut ≠ pe.cut)) ∧
      ∃ c : RollContent, n.roll.awaiting = (s.node.roll.awaiting ++ [c]).drop (s.node.roll.awaiting.length + 1 - 8) ∧
        c.number = p.number ∧ c.kind = p.kind ∧ c.first = p.first ∧ c.count = count ∧
        c.length = (e.position - p.opening).toNat ∧
        (c.grade, c.causes, c.holdCauses) =
          gradePiece s.node { p with cutMoved := p.cutMoved || pe.moved } count (runRecords s.node p.first count)

/-- The grade of a closing piece (R166, Table 47; R167). A WASTE piece is WASTE with its carried causes; a ROLL piece below
the short minimum is WASTE with TOO_SHORT too; any other is HOLD with the causes its tests find, else SHORT below its full
count N, else FIRST. -/
def Sys2Proof.Claims.PiecesAreGraded : Prop :=
  ∀ (n : Node) (p : OpenPiece) (count : Nat) (recs : List RepeatRecord),
    let carried : RollCauses :=
      (if p.start then 1 else 0) ||| (if p.cutMoved then 0x100 else 0) ||| (if p.batchLate then 0x200 else 0)
    let tests := holdTests n p count recs
    let g := gradePiece n p count recs
    (p.kind = .waste → g = (.waste, carried, 0)) ∧
    (p.kind = .roll → count < (cfg n).shortMin → g = (.waste, 2 ||| carried, 0)) ∧
    (p.kind = .roll → (cfg n).shortMin ≤ count →
      (tests ≠ 0 → g.1 = .hold ∧ g.2.1 = tests) ∧
      (tests = 0 → g = (if count < p.full then .short else .first, 0, 0))) ∧
    (tests.getLsbD 2 = true ↔ ∃ r ∈ recs, r.heldBy ≠ 0) ∧
    (∀ q, p.pattern.bind (findPattern (cfg n)) = some q →
      (tests.getLsbD 3 = true ↔ ∃ c ∈ requiredSlots n q, ∃ r ∈ recs, slotFails (cfg n).registerTolerance c r = true) ∧
      (tests.getLsbD 4 = true ↔ q.embossOffset.isSome = true ∧ ∃ r ∈ recs, r.nip ≠ some .full)) ∧
    (tests.getLsbD 5 = true ↔ learntRole n .shade = true ∧ ∃ r ∈ recs, ∃ x ∈ recs, r.batch ≠ x.batch) ∧
    (tests.getLsbD 6 = true ↔ learntRole n .shade = true ∧ ∃ r ∈ recs, r.batch = 0) ∧
    (tests.getLsbD 7 = true ↔ recs.length < count) ∧
    (tests.getLsbD 8 = true ↔ p.cutMoved = true ∨ p.full < count ∨ ∃ r ∈ recs, ∃ x ∈ recs, r.job ≠ x.job) ∧
    (tests.getLsbD 9 = true ↔ p.batchLate = true)

/-- A nip entry that fires alone: tag 1 is the regular close, tag 2 the open of a splice passage, tag 3 its re-close, which
ends the passage. A close moves an OPEN nip to CLOSING when the close gate holds, and is dropped when it does not. -/
def Sys2Proof.Claims.NipFiringsMoveTheNip : Prop :=
  ∀ (s : State) (e : TriggerEntry), FiresAlone s e →
    (e.output = .nipClose → e.tag = 1 → After .triggerFire s fun n =>
      n.nip.regular = false ∧ n.nip.passage = s.node.nip.passage ∧
      (closeGate s.node = true → s.node.nip.state = .opened →
        n.nip.state = .closing ∧ n.nip.actuation = some (cfg s.node).actuationTime) ∧
      (closeGate s.node = false → n.nip.state = s.node.nip.state)) ∧
    (e.output = .nipOpen → e.tag = 2 → After .triggerFire s fun n =>
      n.nip.state = (match s.node.nip.state with | .opened => .opened | _ => .opening) ∧
      (∀ q, s.node.nip.passage = some q → n.nip.passage = some { q with openArm := .done })) ∧
    (e.output = .nipClose → e.tag = 3 → After .triggerFire s fun n =>
      n.nip.passage = none ∧
      (closeGate { s.node with nip := { s.node.nip with passage := none } } = true → s.node.nip.state = .opened →
        n.nip.state = .closing))

/-- The Trigger Table: TRIGGER_FIRE, CUT_PULSE_END, the arm and cancel requests, and what a firing does at its owner. -/
def Obligations.TriggersArmFireAndCancel : Prop :=
  Claims.TriggerFireTakesTheDueEntries ∧ Claims.ArmRequestsAreAnswered ∧ Claims.CutsCloseAndOpenPieces ∧
    Claims.PiecesAreGraded ∧ Claims.NipFiringsMoveTheNip

/-! ### The register loop -/

/-- The loop's runs at the end of a register window with a candidate or without (section Loop states): the second
qualifying result leaves OPEN for CAPTURE or FAR by the capture band; the fourth small error locks; the second large error
in LOCKED unlocks to CAPTURE; the third absent result in a row opens. Each row completes with that state. -/
def Obligations.LoopRunsMoveTheLoop : Prop :=
  ∀ (s : State) (c : Config) (w : RegWindow), Runs s c → s.node.marks.window = some w → w.synthesised = false →
    (captureRange c : Int) ≤ posDiff s.node.travel.position w.expected →
    let l := s.node.loop
    (∀ b, w.best = some b →
      let e := posDiff b w.expected
      (l.state = .opened → l.openRun = 1 → w.tracked = true → s.node.track.tracker = .track → loopHeld s.node = false →
        After (.openRunReached .registerWindowEnd) s fun n =>
          n.loop.state = (if 2 * e.natAbs ≤ captureRange c then .capture else .far) ∧ n.loop.lastError = some e ∧
          n.loop.openRun = 0) ∧
      (l.state = .capture → l.lockRun = 3 → e.natAbs ≤ c.lockWindow →
        After (.lockRunReached .registerWindowEnd) s fun n =>
          n.loop.state = .locked ∧ n.loop.unlockRun = 0 ∧ n.loop.lastError = some e) ∧
      (l.state = .locked → l.unlockRun = 1 → c.unlockWindow < e.natAbs →
        After (.unlockRunReached .registerWindowEnd) s fun n =>
          n.loop.state = .capture ∧ n.loop.lockRun = (if e.natAbs ≤ c.lockWindow then 1 else 0) ∧
          n.loop.lastError = some e)) ∧
    (w.best = none → l.state ≠ .opened → l.absentRun = 2 →
      After (.absentRunReached .registerWindowEnd) s fun n =>
        n.loop.state = .opened ∧ n.loop.absentRun = 0 ∧ n.loop.lockRun = 0 ∧ n.loop.lastError = none)

/-- A correction (section Corrections) runs against the error and never exceeds the maximum; an error of 0 needs none. -/
def Sys2Proof.Claims.CorrectionsAreBounded : Prop :=
  ∀ (c : Config) (st : LoopState) (e : Int),
    (correctionSteps c st e).natAbs ≤ c.maxCorrection ∧ (0 ≤ e → correctionSteps c st e ≤ 0) ∧
    (e ≤ 0 → 0 ≤ correctionSteps c st e) ∧ correctionSteps c st 0 = 0

namespace Sys2Proof.Claims

/-- `r` is the whole number nearest to `num` over `den`, an exact half away from zero. -/
def NearestWhole (num : Int) (den : Nat) (r : Int) : Prop :=
  2 * (num - r * den).natAbs ≤ den ∧ (2 * (num - r * den).natAbs = den → num.natAbs < r.natAbs * den)

end Sys2Proof.Claims

/-- The value of a correction (R94): 0 in LOCKED for an error of at most half the lock window; otherwise minus the error by
the capture gain in sixteenths (halved lock-reduction times in LOCKED) and the compensator scale in thousandths, rounded to
the nearest whole number, an exact half away from zero, and clamped to the maximum correction. -/
def Sys2Proof.Claims.CorrectionsTakeTheGain : Prop :=
  ∀ (c : Config) (st : LoopState) (e : Int),
    (st = .locked → 2 * e.natAbs ≤ c.lockWindow → correctionSteps c st e = 0) ∧
    (¬(st = .locked ∧ 2 * e.natAbs ≤ c.lockWindow) →
      ∃ r : Int, NearestWhole (-e * c.captureGain * c.compensatorScale)
          (if st = .locked then 16000 * 2 ^ c.lockReduction else 16000) r ∧
        correctionSteps c st e =
          (if r < -(c.maxCorrection : Int) then -(c.maxCorrection : Int)
           else if (c.maxCorrection : Int) < r then (c.maxCorrection : Int) else r))

/-- STEP_TRAIN_COMPLETION: the last pulse of the train has ended: the train is gone and the settle count is the print-to-eye
distance over the length of the repeat here, rounded up, plus one. Nothing else changes; an unfinished train stays. -/
def Sys2Proof.Claims.StepTrainCompletionStartsSettling : Prop :=
  ∀ (s : State) (t : StepTrain), s.node.loop.train = some t →
    (trainDone (cfg s.node) t = false → Gives .stepTrainCompletion s s.node) ∧
    (∀ len : Nat, trainDone (cfg s.node) t = true → settleLength s.node = some len → 0 < len →
      Gives .stepTrainCompletion s { s.node with loop := { s.node.loop with
        train := none, settle := ceilDiv (cfg s.node).printToEye len + 1 } })

/-- Corrections and step trains: the bounds and the value of a correction and STEP_TRAIN_COMPLETION. -/
def Obligations.CorrectionsAndTrains : Prop :=
  Claims.CorrectionsAreBounded ∧ Claims.CorrectionsTakeTheGain ∧ Claims.StepTrainCompletionStartsSettling

/-- SETTLE_COUNT_ZERO: at a synthesised mark of an eye in TRACK with no job to switch to, a settle count of 1 falls to 0. -/
def Sys2Proof.Claims.SettleCountFallsAtAReport : Prop :=
  ∀ (s : State) (p : Pos) (r : RepeatRecord), s.node.track.tracker = .track → s.node.track.predicted = some p →
    trackerWindowOver s.node = true → oldestPending s.node = some r → s.node.job.given = none →
    s.node.marks.window = none → s.node.loop.settle = 1 →
    After (.settleCountZero .trackerWindowEnd) s fun n => n.loop.settle = 0 ∧ n.track.here = some r.number

/-! ### The nip -/

/-- ACTUATION_COMPLETION: the actuation timer is over: CLOSING becomes CLOSED; OPENING becomes OPEN, and CLOSING again
when a close waits and the close gate holds. -/
def Sys2Proof.Claims.ActuationCompletionEndsTheMovement : Prop :=
  ∀ s : State, s.node.nip.actuation = some 0 →
    After .actuationCompletion s fun n =>
      n = { s.node with nip := n.nip } ∧ n.nip.passage = s.node.nip.passage ∧
      (s.node.nip.state = .closing → n.nip.state = .closed ∧ n.nip.actuation = none) ∧
      (s.node.nip.state = .opening → s.node.nip.waitingClose = false → n.nip.state = .opened ∧ n.nip.actuation = none) ∧
      (s.node.nip.state = .opening → s.node.nip.waitingClose = true →
        n.nip.waitingClose = false ∧
        (if closeGate s.node then n.nip.state = .closing ∧ n.nip.actuation = some (cfg s.node).actuationTime
         else n.nip.state = .opened ∧ n.nip.actuation = none))

/-- COVERAGE_PASSAGE_END: with the start of the next span passed, the first span leaves with its coverage: FULL when the
nip was seen closed and nothing else, NONE when it was seen open and never closed or moving, else PARTIAL; four reports are
kept. -/
def Sys2Proof.Claims.CoveragePassageEndsWithAReport : Prop :=
  ∀ (s : State) (sp next : CoverageSpan) (rest : List CoverageSpan), s.node.nip.spans = sp :: next :: rest →
    (passed s.node.travel.position next.start = false → Gives .coveragePassageEnd s s.node) ∧
    (passed s.node.travel.position next.start = true → s.node.nip.reports.length < 4 →
      Gives .coveragePassageEnd s { s.node with nip := { s.node.nip with
        spans := next :: rest,
        reports := s.node.nip.reports ++ [(sp.number,
          if sp.sawClosed && !sp.sawOther then .full
          else if sp.sawOther && !sp.sawClosed && !sp.sawMoving then .none else .partly)] } })

/-- The nip: ACTUATION_COMPLETION and COVERAGE_PASSAGE_END. -/
def Obligations.NipMovementsAndCoverage : Prop :=
  Claims.ActuationCompletionEndsTheMovement ∧ Claims.CoveragePassageEndsWithAReport

/-! ### The repeat track -/

/-- CYLINDER_INDEX at a running KEY: the first index is only held; one less than 1,250 ticks after the last is ignored; any
other issues the next repeat number with the length travelled, and offers REPEAT for it. -/
def Sys2Proof.Claims.CylinderIndexIssuesARepeat : Prop :=
  ∀ s : State, isRole s.node .key = true → s.node.track.running = true →
    (s.node.track.prevIndex = none → After .cylinderIndex s fun n =>
      n.track = { s.node.track with prevIndex := some s.node.travel.position } ∧
      n.travel.lastBoundary = some (s.node.travel.position, s.node.now)) ∧
    (∀ (p : Pos) (x : Nat), s.node.track.prevIndex = some p → s.node.track.nextRepeat = some x →
      let travel := (s.node.travel.position - p).toNat
      (travel < 1250 → Gives .cylinderIndex s s.node) ∧
      (1250 ≤ travel → isJoined s.node = true → downQueued s.node = false → s.node.link.queue.length < 15 →
        After .cylinderIndex s fun n =>
          n.track.newestIssued = some x ∧ n.track.nextRepeat = some (if x < 16777215 then x + 1 else 1) ∧
          n.track.prevIndex = some s.node.travel.position ∧ n.track.here = s.node.track.here ∧
          n.job.observedLength = some (min travel 65535) ∧
          (∃ q ∈ n.link.queue, ∃ pl, q.telegram = .repeat_ pl ∧ pl.number = x ∧ pl.length = min travel 65535)))

/-- OUTSIDE_RUN_REACHED and INSIDE_RUN_REACHED at an index of the KEY under a current job with a known pattern and no other
job to test: the fourth length outside the window makes the length part active, the fourth inside ends it. -/
def Sys2Proof.Claims.LengthRunsReachFour : Prop :=
  ∀ (s : State) (p : Pos) (x : Nat) (j : JobRecord) (pat : Pattern),
    isRole s.node .key = true → s.node.track.running = true → s.node.track.prevIndex = some p →
    s.node.track.nextRepeat = some x → 1250 ≤ (s.node.travel.position - p).toNat →
    s.node.job.current = some j → s.node.job.given = some j → s.node.job.inOffer = none →
    findPattern (cfg s.node) j.pattern = some pat →
    let len := min (s.node.travel.position - p).toNat 65535
    (¬(pat.windowMin ≤ len ∧ len ≤ pat.windowMax) → s.node.job.outside = 3 →
      After (.outsideRunReached .cylinderIndex) s fun n =>
        n.job.outside = 4 ∧ n.job.inside = 0 ∧ n.job.lengthPart = true ∧ jobMismatch n = true) ∧
    (pat.windowMin ≤ len ∧ len ≤ pat.windowMax → s.node.job.inside = 3 → s.node.job.lengthPart = true →
      After (.insideRunReached .cylinderIndex) s fun n =>
        n.job.inside = 4 ∧ n.job.outside = 0 ∧ n.job.lengthPart = false)

/-- SPLICE_DETECTION at a KEY that is LISTENING, JOINING or JOINED: a fresh detection is held, and its arrival joins a queue
of fewer than four; with four queued it is counted as an overflow and LINK_FAULT becomes active. A detection within 1,000
ticks of the last changes nothing. -/
def Sys2Proof.Claims.SpliceDetectionQueuesTheArrival : Prop :=
  ∀ s : State, isRole s.node .key = true → (s.node.st = .listening ∨ s.node.st = .joining ∨ s.node.st = .joined) →
    ((∀ q, s.node.track.lastSplice = some q → 1000 ≤ (s.node.travel.position - q).toNat) →
      (s.node.track.splices.length < 4 →
        Gives .spliceDetection s { s.node with track := { s.node.track with
          lastSplice := some s.node.travel.position,
          splices := s.node.track.splices ++
            [s.node.travel.position + BitVec.ofNat 32 (cfg s.node).spliceDistance] } }) ∧
      (4 ≤ s.node.track.splices.length →
        After .spliceDetection s fun n =>
          n.link.linkFault = true ∧ n.link.ownRun = 0 ∧
          n.track = { s.node.track with lastSplice := some s.node.travel.position,
                                        spliceOverflows := s.node.track.spliceOverflows + 1 } ∧
          n = { s.node with track := n.track, link := n.link, hold := n.hold, port := n.port })) ∧
    (∀ q, s.node.track.lastSplice = some q → (s.node.travel.position - q).toNat < 1000 →
      Gives .spliceDetection s s.node)

/-- The issuer of the KEY: CYLINDER_INDEX, the length runs it can bring to four, and SPLICE_DETECTION. -/
def Obligations.TheKeyIssuesAndQueuesSplices : Prop :=
  Claims.CylinderIndexIssuesARepeat ∧ Claims.LengthRunsReachFour ∧ Claims.SpliceDetectionQueuesTheArrival

/-- A KEY mark in SEARCH, ALIGN or TRACK, inside the window of ALIGN and TRACK, whose depth matches the pending record `r`
past the records `skipped`, with no switch of the job due: here names the record, the skipped records are counted missed,
the depth is kept, a tally span starts, and the tracker moves from SEARCH to ALIGN, counts in ALIGN, and reaches TRACK at
the fourth match: the row ALIGN_COUNT_REACHED completes there. -/
def Sys2Proof.Claims.KeyMarkMatchesTheRecord : Prop :=
  ∀ (s : State) (m : Mark) (new : RepeatRecord) (r : RepeatRecord) (skipped : List RepeatRecord) (d : Nat),
    eyeRole s.node = true → s.node.pins.eyeDark = true → s.node.travel.debt = 0 → s.node.marks.mark = some m →
    40 ≤ posDiff s.node.travel.position m.edge → posDiff s.node.travel.position m.edge ≤ 60 →
    strayKeyMark s.node m.edge = false → s.node.job.given = none →
    s.node.track.table.getLast? = some new → 0 < new.length →
    findMatch (isPending s.node) (expectedDepth (cfg s.node).keyToEye new.length) [] s.node.track.table = some (r, skipped, d) →
    (s.node.track.tracker ≠ .idle → s.node.track.tracker ≠ .lost →
      After .markTrailingEdge s fun n =>
        n.track.here = some r.number ∧ n.track.lastDepth = some d ∧
        n.track.missed = s.node.track.missed + BitVec.ofNat 32 skipped.length ∧
        n.track.unclaimed = s.node.track.unclaimed ∧ n.track.table = s.node.track.table ∧
        (∃ sp, n.marks.span = some sp ∧ sp.edge = m.edge ∧ sp.cells = []) ∧
        n.track.tracker = (match s.node.track.tracker with
          | .track => .track
          | .align => if s.node.track.alignCount < 3 then .align else .track
          | _ => .align) ∧
        n.track.alignCount = (match s.node.track.tracker with
          | .track => s.node.track.alignCount
          | .align => if s.node.track.alignCount < 3 then s.node.track.alignCount + 1 else 4
          | _ => 1)) ∧
    (s.node.track.tracker = .align → s.node.track.alignCount = 3 →
      After (.alignCountReached .trailingEdge) s fun n =>
        n.track.tracker = .track ∧ n.track.alignCount = 4 ∧ n.track.missCount = 0 ∧ n.track.tracked = true ∧
        n.track.here = some r.number)

/-- A KEY mark outside the window of ALIGN or TRACK is counted stray and moves nothing: a running tally span stays as it is,
the model's choice (log entry 11). One in IDLE or LOST is counted unclaimed and starts a tally span. -/
def Sys2Proof.Claims.UnmatchedKeyMarksAreCounted : Prop :=
  ∀ (s : State) (m : Mark),
    eyeRole s.node = true → s.node.pins.eyeDark = true → s.node.travel.debt = 0 → s.node.marks.mark = some m →
    40 ≤ posDiff s.node.travel.position m.edge → posDiff s.node.travel.position m.edge ≤ 60 →
    (strayKeyMark s.node m.edge = true → After .markTrailingEdge s fun n =>
      n.marks = { s.node.marks with mark := none, stray := s.node.marks.stray + 1 } ∧ n.track = s.node.track) ∧
    (s.node.track.tracker = .idle ∨ s.node.track.tracker = .lost → After .markTrailingEdge s fun n =>
      n.track = { s.node.track with unclaimed := s.node.track.unclaimed + 1 } ∧
      (∃ sp, n.marks.span = some sp ∧ sp.edge = m.edge ∧ sp.cells = []))

/-- A KEY mark at an eye: matched to its record, stray, or unclaimed. -/
def Obligations.KeyMarksMatchOrAreCounted : Prop :=
  Claims.KeyMarkMatchesTheRecord ∧ Claims.UnmatchedKeyMarksAreCounted

/-- TRACKER_WINDOW_END: in ALIGN the tracker returns to SEARCH with its counts 0; in TRACK with a pending record the mark is
synthesised: here names the oldest pending record, the mark is counted missed and the miss count rises; the third miss in a
row enters LOST (MISS_COUNT_REACHED), with a pending record or without one. -/
def Sys2Proof.Claims.TrackerWindowEndsInAMiss : Prop :=
  ∀ (s : State) (p : Pos), trackerWindowOver s.node = true → s.node.track.predicted = some p →
    (s.node.track.tracker = .align → After .trackerWindowEnd s fun n =>
      n.track = { s.node.track with tracker := .search, alignCount := 0, missCount := 0, predicted := none } ∧
      n.travel.lastBoundary = none ∧ n.travel.lastSpeed = none ∧ n.travel.speedStep = false ∧ n.shade.window = none) ∧
    (∀ r, s.node.track.tracker = .track → oldestPending s.node = some r → s.node.job.given = none →
      s.node.track.missCount < 2 → After .trackerWindowEnd s fun n =>
        n.track.here = some r.number ∧ n.track.missed = s.node.track.missed + 1 ∧ n.track.tracker = .track ∧
        n.track.missCount = s.node.track.missCount + 1 ∧ n.travel.lastBoundary = none) ∧
    (s.node.track.tracker = .track → s.node.track.missCount = 2 → s.node.job.given = none →
      After (.missCountReached .trackerWindowEnd) s fun n =>
        n.track.tracker = .lost ∧ n.track.lostStart = some s.node.travel.position ∧ n.track.missCount = 0 ∧
        n.track.predicted = none ∧ n.loop.state = .opened ∧ n.shade.window = none ∧
        Gives .trackerWindowEnd s n)

/-- LOST_HOLD_OFF_END: twice the prediction length past the LOST start position the tracker enters SEARCH; before it nothing
happens. -/
def Sys2Proof.Claims.LostHoldOffEndsInSearch : Prop :=
  ∀ (s : State) (p : Pos), s.node.track.tracker = .lost → s.node.track.lostStart = some p →
    let len := s.node.track.predLen.getD 0
    (((2 * len : Nat) : Int) ≤ posDiff s.node.travel.position p → After .lostHoldOffEnd s fun n =>
      n.track = { s.node.track with tracker := .search, alignCount := 0, missCount := 0, predicted := none } ∧
      n = { s.node with track := n.track, travel := n.travel, shade := n.shade, hold := n.hold, link := n.link,
                        port := n.port }) ∧
    (posDiff s.node.travel.position p < ((2 * len : Nat) : Int) → Gives .lostHoldOffEnd s s.node)

/-- TRACKER_WINDOW_END, MISS_COUNT_REACHED and LOST_HOLD_OFF_END. -/
def Obligations.TrackerWindowsAndHoldOffsEnd : Prop :=
  Claims.TrackerWindowEndsInAMiss ∧ Claims.LostHoldOffEndsInSearch

/-! ### Shade and batches -/

/-- SHADE_SAMPLE at a JOINED SHADE node with a sample due: the six codes enter the six channels of the window in progress,
a full-scale code marks its channel saturated, and the sample is taken from those due. During a calibration run the codes of
a sample that fell due in the tile half (R122), at the last multiple of ten ticks, enter the tiles. That the half takes in its
first position, start + 2L, and not start + 4L is the model's choice (log entry 36). Elsewhere nothing changes. -/
def Sys2Proof.Claims.ShadeSampleEntersTheChannels : Prop :=
  ∀ (codes : ShadeCodes) (s : State),
    (isRole s.node .shade = true → isJoined s.node = true → 0 < s.node.shade.samplesDue → s.node.shade.run = none →
      After (.shadeSample codes) s fun n =>
        n.shade.samplesDue = s.node.shade.samplesDue - 1 ∧
        (s.node.shade.window = none → n.shade.channels = s.node.shade.channels) ∧
        (∀ a b c d e f, s.node.shade.window.isSome = true → s.node.shade.channels = [a, b, c, d, e, f] →
          n.shade.channels = [addCode a codes.l0, addCode b codes.l1, addCode c codes.l2,
                              addCode d codes.r0, addCode e codes.r1, addCode f codes.r2]) ∧
        n = { s.node with shade := { s.node.shade with samplesDue := n.shade.samplesDue, channels := n.shade.channels } }) ∧
    (∀ r a b c d e f, isRole s.node .shade = true → isJoined s.node = true → s.node.shade.samplesDue = 1 →
      s.node.shade.run = some r → r.tiles = [a, b, c, d, e, f] →
      After (.shadeSample codes) s fun n =>
        let at_ := posDiff (BitVec.ofNat 32 (s.node.travel.position.toNat / 10 * 10)) r.start
        n.shade.samplesDue = 0 ∧
        n.shade.run = some (if ((2 * r.length : Nat) : Int) ≤ at_ ∧ at_ < ((4 * r.length : Nat) : Int) then
          { r with tiles := [addCode a codes.l0, addCode b codes.l1, addCode c codes.l2,
                             addCode d codes.r0, addCode e codes.r1, addCode f codes.r2] }
          else r)) ∧
    (isRole s.node .shade = false ∨ isJoined s.node = false ∨ s.node.shade.samplesDue = 0 →
      Gives (.shadeSample codes) s s.node) ∧
    (∀ (ch : Channel) (x : Nat), addCode ch x =
      { sum := ch.sum + x, count := ch.count + 1, saturated := ch.saturated || decide (4095 ≤ x) })

/-- CALIBRATION_END: past the end of the shutter span the run is over and the due count 0; a saturated tile raises the
calibration fault and keeps the offsets; any other run gives MEASURING and one offset for each tile: with samples, the tile
mean in hundredths less the tile's value. Before the end nothing happens. That the span is over at start + 4L itself is the
model's choice (log entry 36). -/
def Sys2Proof.Claims.CalibrationEndSetsTheOffsets : Prop :=
  ∀ (s : State) (r : CalRun), s.node.shade.run = some r →
    (posDiff s.node.travel.position r.start < ((4 * r.length : Nat) : Int) → Gives .calibrationEnd s s.node) ∧
    (((4 * r.length : Nat) : Int) ≤ posDiff s.node.travel.position r.start →
      After .calibrationEnd s fun n =>
        n.shade.run = none ∧ n.shade.due = 0 ∧
        (r.tiles.any (·.saturated) = true →
          n.shade.fault = true ∧ n.shade.offsets = s.node.shade.offsets ∧ headFault n = true ∧
          n.shade.head = (if s.node.shade.offsetsGood then .measuring else .uncalibrated)) ∧
        (r.tiles.any (·.saturated) = false →
          n.shade.fault = false ∧ n.shade.head = .measuring ∧ n.shade.offsets.length = r.tiles.length ∧
          ∀ i ch, r.tiles[i]? = some ch → 0 < ch.count →
            n.shade.offsets[i]? = some (roundHalfAway (ch.sum * (cfg s.node).gains.getD i 0 : Nat) (1000 * ch.count) -
              (cfg s.node).tiles.getD i 0)) ∧
        n = { s.node with shade := n.shade, freeIndex := n.freeIndex, hold := n.hold, link := n.link, port := n.port })

/-- SHADE_SAMPLE and CALIBRATION_END. -/
def Obligations.ShadeSamplesAndCalibration : Prop :=
  Claims.ShadeSampleEntersTheChannels ∧ Claims.CalibrationEndSetsTheOffsets

/-- CALIBRATION_DUE: at a synthesised mark of a JOINED SHADE node in TRACK that measures, the window that closes brings the
due count to the interval, and the calibration run starts. -/
def Sys2Proof.Claims.CalibrationFallsDueAtAWindowEnd : Prop :=
  ∀ (s : State) (p : Pos) (r : RepeatRecord) (w : ShadeWindow), isRole s.node .shade = true → isJoined s.node = true →
    s.node.track.tracker = .track → s.node.track.predicted = some p → trackerWindowOver s.node = true →
    oldestPending s.node = some r → s.node.job.given = none → s.node.shade.window = some w →
    s.node.shade.head = .measuring → s.node.shade.run = none → s.node.shade.due + 1 = (cfg s.node).calibrationInterval →
    After (.calibrationDue .trackerWindowEnd) s fun n =>
      n.shade.due = (cfg s.node).calibrationInterval ∧ n.shade.head = .calibrating ∧ n.shade.run.isSome = true ∧
      pinSHUTTER n = true

/-- A synthesised mark whose repeat is at or after the first repeat of another given job `j` (R73): with a known pattern the
report switches the current job (R76), restarts the length check, suspends the tally check (R78) and opens the loop; the
tracker falls to SEARCH when the nominal lengths differ by more than 5 % of the old one (R62) and stays in TRACK otherwise.
The nip opens for a pattern without emboss offset, the Batch Unit opens a JOB batch, the Roll Builder plans a JOB cut. With an
unknown pattern only the unknown-pattern part becomes active (R75). -/
def Sys2Proof.Claims.ReportsSwitchTheJob : Prop :=
  ∀ (s : State) (p : Pos) (r : RepeatRecord) (c j : JobRecord), s.node.track.tracker = .track →
    s.node.track.predicted = some p → trackerWindowOver s.node = true → oldestPending s.node = some r →
    s.node.marks.window = none → s.node.track.missCount < 2 →
    s.node.job.current = some c → s.node.job.given = some j → c.number ≠ j.number → repeatAtOrAfter r.number j.first = true →
    (findPattern (cfg s.node) j.pattern = none → After .trackerWindowEnd s fun n =>
      n.job.unknownPart = true ∧ n.job.current = some c ∧ jobMismatch n = true ∧ n.track.tracker = .track) ∧
    (∀ old new : Pattern, findPattern (cfg s.node) c.pattern = some old → findPattern (cfg s.node) j.pattern = some new →
      After .trackerWindowEnd s fun n =>
        let far := 100 * ((old.nominal : Int) - new.nominal).natAbs > 5 * old.nominal
        n.job.current = some j ∧ n.job.given = some j ∧ n.job.unknownPart = false ∧ n.job.lengthPart = false ∧
        n.job.tallyPart = false ∧ n.job.suspension = 2 ∧ n.loop.state = .opened ∧ n.track.here = some r.number ∧
        (far → n.track.tracker = .search ∧ n.track.alignCount = 0 ∧ n.track.missCount = 0 ∧ n.track.predicted = none ∧
          n.travel.lastBoundary = none ∧ n.travel.lastSpeed = none ∧ n.travel.speedStep = false) ∧
        (¬far → n.track.tracker = .track ∧ n.track.missCount = s.node.track.missCount + 1) ∧
        (isRole s.node .emboss = true → new.embossOffset = none → n.nip.regular = false ∧
          n.nip.state = (match s.node.nip.state with | .opened => .opened | _ => .opening)) ∧
        (∀ l code : Nat, isRole s.node .shade = true → isJoined s.node = true → s.node.link.resume = none →
          s.node.shade.window = none → s.node.batch.watch = none → s.node.batch.lastDecided = some l →
          newer repeatRange j.first l = true → s.node.batch.nextCode = some code →
          n.batch.lastDecided = some j.first ∧ n.batch.lastOpened = some code ∧
            n.batch.inOffer = s.node.batch.inOffer + 1) ∧
        (∀ pc, isRole s.node .rewind = true → isJoined s.node = true → s.node.roll.piece = some pc → pc.kind = .roll →
          s.node.roll.plan = [] →
          n.roll = { s.node.roll with plan := [{ cut := j.first, reasons := { job := true }, kind := .roll }] }))

/-- What the match report of a synthesised mark brings about: SETTLE_COUNT_ZERO at a loop, CALIBRATION_DUE at the SHADE node,
and the switch of the current job. -/
def Obligations.ReportsOfSynthesisedMarks : Prop :=
  Claims.SettleCountFallsAtAReport ∧ Claims.CalibrationFallsDueAtAWindowEnd ∧ Claims.ReportsSwitchTheJob

/-- The sixteenth mean triple fixes a forming batch: its reference is the mean of the sixteen, its tolerances are those of
the current pattern, and BATCH FIXED is offered with the reference. -/
def Sys2Proof.Claims.SixteenRepeatsFixTheBatch : Prop :=
  ∀ (n : Node) (b : OwnBatch) (mean : Triple) (pat : Pattern), n.batch.own = some b → b.phase = .forming →
    (b.count < 15 → formMean n mean =
      { n with batch := { n.batch with own := some { b with sums := addTriple b.sums mean, count := b.count + 1 } } }) ∧
    (b.count = 15 → curPattern n = some pat → isJoined n = true → downQueued n = false → n.link.queue.length < 16 →
      let ref := divTriple (addTriple b.sums mean) 16
      (formMean n mean).batch.own = some { b with sums := addTriple b.sums mean, count := 16, phase := .fixed,
                                                  reference := ref, tolerance := pat.tolerance } ∧
      (formMean n mean).link.queue = n.link.queue ++
        [{ telegram := .batchFixed { code := b.code, first := b.first, reason := b.reason } ref, restate := false,
           offerBy := .fixed n.batch.lastOpened }])

/-- The drift test of a FIXED batch: a repeat whose mean lies outside a tolerance lengthens the drift run, which remembers
its first repeat; any other ends it. The answer is that first repeat once the run reaches K. The model's own count of the
runs that reached K (log entry 61) follows. -/
def Sys2Proof.Claims.DriftRunsAreCounted : Prop :=
  ∀ (n : Node) (b : OwnBatch) (g : Graded) (mean : Triple), n.batch.own = some b → b.phase = .fixed → g.mean = some mean →
    n.batch.inOffer = 0 → 0 < (cfg n).driftK →
    (differs b.tolerance mean b.reference = false →
      formOrTest n g = ({ n with batch := { n.batch with driftRun := 0, driftFirst := none } }, none)) ∧
    (differs b.tolerance mean b.reference = true →
      let first := if n.batch.driftRun = 0 then some g.number else n.batch.driftFirst
      formOrTest n g = ({ n with batch := { n.batch with
          driftRun := n.batch.driftRun + 1, driftFirst := first,
          driftReached := if n.batch.driftRun + 1 = (cfg n).driftK then n.batch.driftReached + 1 else n.batch.driftReached } },
        if (cfg n).driftK ≤ n.batch.driftRun + 1 then first else none))

/-- A BATCH FIXED dropped after its third ended attempt is offered again at the end of the queue while the newest opening is
the one it was at the offer; when another opening has been offered since, it is abandoned. That a lost OPENED which is offered
again is none is the model's reading (log entry 62). -/
def Sys2Proof.Claims.LostFixedIsOfferedAgain : Prop :=
  ∀ (n : Node) (p : BatchPayload) (ref : Triple) (after : Option Nat) (restate : Bool),
    let e : QEntry := { telegram := .batchFixed p ref, restate := restate, offerBy := .fixed after }
    (n.batch.lastOpened = after → isJoined n = true → downQueued n = false → n.link.queue.length < 16 →
      offerDropped n e = { n with link := { n.link with queue := n.link.queue ++
        [{ telegram := .batchFixed p ref, restate := false, offerBy := .fixed after }] } }) ∧
    (n.batch.lastOpened ≠ after → offerDropped n e = n)

namespace Sys2Proof.Claims

/-- A tracker window ends in TRACK without a mark at a JOINED SHADE node, with a pending record and no job to switch to: the
shade window in progress grades OK with this mean triple, and the first opening was made. -/
def OkWindowEnds (s : State) (mean : Triple) : Prop :=
  isRole s.node .shade = true ∧ isJoined s.node = true ∧ downQueued s.node = false ∧ s.node.track.tracker = .track ∧
    trackerWindowOver s.node = true ∧ (oldestPending s.node).isSome = true ∧ s.node.job.given = none ∧
    s.node.batch.kind = none ∧ s.node.batch.inOffer = 0 ∧
    (s.node.shade.window.map (gradeWindow s.node)) = some .ok ∧
    meanTriple (headTriple s.node 0) (headTriple s.node 3) = some mean

end Sys2Proof.Claims

/-- The forming count and the drift run of the own batch, and a FIXED that is lost. -/
def Obligations.FormingAndDrift : Prop :=
  Claims.SixteenRepeatsFixTheBatch ∧ Claims.DriftRunsAreCounted ∧ Claims.LostFixedIsOfferedAgain

/-- An opening that is made takes the next batch code, ends the drift run and the step watch, is the newest decided first
repeat and stands in offer; one whose first repeat is not newer than the last decided one changes nothing. -/
def Sys2Proof.Claims.OpeningsTakeTheNextCode : Prop :=
  ∀ (n : Node) (first code : Nat) (reason : BatchReason), n.batch.nextCode = some code →
    (∀ l, n.batch.lastDecided = some l → newer repeatRange first l = false → openBatch n first reason = n) ∧
    ((∀ l, n.batch.lastDecided = some l → newer repeatRange first l = true) → isJoined n = true → downQueued n = false →
      n.link.queue.length < 16 →
      openBatch n first reason =
        { n with
          batch := { n.batch with
            nextCode := some (if code < 9999 then code + 1 else 1), lastDecided := some first, driftRun := 0,
            driftFirst := none, watch := none, inOffer := n.batch.inOffer + 1, lastOpened := some code },
          link := { n.link with queue := n.link.queue ++
            [{ telegram := .batchOpened { code := code, first := first, reason := reason }, restate := false,
               offerBy := .opened }] } })

/-- The step watch holds four OK repeats; when the fourth comes and their mean differs from the mean before the calibration,
a CALIBRATION_STEP opening is made at the first repeat after it. -/
def Sys2Proof.Claims.StepWatchDecidesAtFour : Prop :=
  ∀ (n : Node) (w : StepWatch) (g : Graded) (pat : Pattern) (f code : Nat),
    n.batch.watch = some w → curPattern n = some pat →
    (w.held.length < 3 → holdByWatch n w g =
      { n with batch := { n.batch with watch := some { w with held := w.held ++ [g] } } }) ∧
    (w.held.length = 3 → differs pat.tolerance (meanOfFour (w.held ++ [g])) w.before = true →
      n.shade.firstAfter = some f → n.batch.nextCode = some code →
      (∀ l, n.batch.lastDecided = some l → newer repeatRange f l = true) →
      (holdByWatch n w g).batch.watch = none ∧ (holdByWatch n w g).batch.lastDecided = some f ∧
      (holdByWatch n w g).batch.lastOpened = some code)

/-- A batch opening, and the step watch that can decide one. -/
def Obligations.OpeningsAndTheStepWatch : Prop :=
  Claims.OpeningsTakeTheNextCode ∧ Claims.StepWatchDecidesAtFour

/-- FORMING_COUNT_REACHED at a synthesised mark of a JOINED SHADE node whose window grades OK: the sixteenth mean triple of
the forming own batch fixes it, with the mean of the sixteen as its reference and the tolerances of the current pattern. -/
def Sys2Proof.Claims.FormingCountIsReached : Prop :=
  ∀ (s : State) (mean : Triple) (pat : Pattern) (b : OwnBatch), OkWindowEnds s mean → curPattern s.node = some pat →
    s.node.batch.watch = none → s.node.batch.own = some b → b.phase = .forming → b.count = 15 →
    After (.formingCountReached .trackerWindowEnd) s fun n =>
      n.batch.own = some { b with sums := addTriple b.sums mean, count := 16, phase := .fixed,
                                  reference := divTriple (addTriple b.sums mean) 16, tolerance := pat.tolerance }

/-- DRIFT_RUN_REACHED at such a window: the repeat that brings the drift run of the FIXED own batch to K makes an opening at
the first repeat of the run. -/
def Sys2Proof.Claims.DriftRunIsReached : Prop :=
  ∀ (s : State) (mean : Triple) (b : OwnBatch) (f code : Nat), OkWindowEnds s mean →
    s.node.batch.watch = none → s.node.batch.own = some b → b.phase = .fixed →
    differs b.tolerance mean b.reference = true → s.node.batch.driftRun + 1 = (cfg s.node).driftK →
    (if s.node.batch.driftRun = 0 then s.node.shade.window.map (·.number) else s.node.batch.driftFirst) = some f →
    (∀ l, s.node.batch.lastDecided = some l → newer repeatRange f l = true) → s.node.batch.nextCode = some code →
    After (.driftRunReached .trackerWindowEnd) s fun n =>
      n.batch.lastDecided = some f ∧ n.batch.lastOpened = some code ∧ n.batch.driftRun = 0 ∧ n.batch.inOffer = 1 ∧
      n.batch.own = some b

/-- STEP_WATCH_FULL at such a window with no calibration due at it: the fourth held repeat ends the watch. -/
def Sys2Proof.Claims.StepWatchIsFull : Prop :=
  ∀ (s : State) (mean : Triple) (w : StepWatch), OkWindowEnds s mean → s.node.batch.watch = some w → w.held.length = 3 →
    s.node.batch.history.length < 32 → s.node.shade.due + 1 < (cfg s.node).calibrationInterval →
    s.node.shade.fault = false →
    After (.stepWatchFull .trackerWindowEnd) s fun n =>
      n.batch.watch = none ∧ n.batch.history.length = s.node.batch.history.length + 1 ∧
      n.batch.history.take s.node.batch.history.length = s.node.batch.history

/-- FORMING_COUNT_REACHED, DRIFT_RUN_REACHED and STEP_WATCH_FULL at the end of an OK window. -/
def Obligations.BatchLimitsAreReached : Prop :=
  Claims.FormingCountIsReached ∧ Claims.DriftRunIsReached ∧ Claims.StepWatchIsFull

/-! ### Holds -/

/-- REQUEST HOLD_ON for this JOINED holding node with OPERATOR enabled and its resume window closed: the operator factor
becomes active and stands in the factor set; with no hold open, one is set at the hold reference repeat: HELD, with the
factors of the set, and ATTN shows it. With the factor disabled the request is counted as refused. -/
def Sys2Proof.Claims.HoldOnSetsTheHold : Prop :=
  ∀ (o : Origin) (s : State), isJoined s.node = true → holdRole s.node = true → s.node.link.resume = none →
    o.sender ≠ (cfg s.node).station → s.node.link.drove = false → s.node.link.sending = false →
    ((cfg s.node).factorMask.getLsbD 9 = true → s.node.hold.own = none → s.node.hold.state = .clear →
      s.node.hold.seen.getLsbD 9 = false →
      After (.requestHoldOn o (cfg s.node).station) s fun n =>
        n.hold.operator = true ∧ n.hold.state = .held ∧ (factorSet n).getLsbD 9 = true ∧
        (∃ h, n.hold.own = some h ∧ h.causes.getLsbD 9 = true ∧ h.first = holdReference s.node) ∧
        n.port.attention &&& attHold = attHold) ∧
    ((cfg s.node).factorMask.getLsbD 9 = false →
      After (.requestHoldOn o (cfg s.node).station) s fun n =>
        n.hold.operator = s.node.hold.operator ∧ n.port.refusals = s.node.port.refusals + 1) ∧
    (∀ arg, arg ≠ (cfg s.node).station →
      After (.requestHoldOn o arg) s fun n =>
        n.hold.operator = s.node.hold.operator ∧ n.port.refusals = s.node.port.refusals)

/-- REQUEST CLEAR_HOLD for this JOINED holding node, its resume window closed: with a hold open and no factor but OPERATOR
in the set, OPERATOR ends and the hold is cleared: CLEAR, no own hold, and a CLEAR wanted with its causes. With the hold
state CLEAR, or another factor in the set, it is counted as refused. -/
def Sys2Proof.Claims.ClearHoldEndsTheHold : Prop :=
  ∀ (o : Origin) (s : State), isJoined s.node = true → holdRole s.node = true → s.node.link.resume = none →
    o.sender ≠ (cfg s.node).station → s.node.link.drove = false → s.node.link.sending = false →
    s.node.link.queue.length < 16 → downQueued s.node = false →
    (∀ h, s.node.hold.own = some h → s.node.hold.state ≠ .clear →
      factorSet s.node &&& 0x1FF = 0 →
      After (.requestClearHold o (cfg s.node).station) s fun n =>
        n.hold.operator = false ∧ n.hold.state = .clear ∧ n.hold.own = none ∧
        n.hold.wanted = some (.clear (holdReference s.node) h.causes)) ∧
    (s.node.hold.state = .clear ∨ factorSet s.node &&& 0x1DF ≠ 0 →
      After (.requestClearHold o (cfg s.node).station) s fun n =>
        n.hold.operator = s.node.hold.operator ∧ n.port.refusals = s.node.port.refusals + 1)

/-- REQUEST_HOLD_ON and REQUEST_CLEAR_HOLD at the node they name. -/
def Obligations.OperatorHolds : Prop :=
  Claims.HoldOnSetsTheHold ∧ Claims.ClearHoldEndsTheHold

namespace Sys2Proof.Claims

/-- A JOINED KEY is QUIETING with this own hold and no factor, and the next index issues repeat `x`. -/
def QuietIssue (s : State) (x : Nat) (h : OwnHold) : Prop :=
  isRole s.node .key = true ∧ isJoined s.node = true ∧
    s.node.link.resume = none ∧ s.node.track.running = true ∧
    (∃ p, s.node.track.prevIndex = some p ∧ 1250 ≤ (s.node.travel.position - p).toNat) ∧
    s.node.track.nextRepeat = some x ∧ s.node.travel.lastBoundary = none ∧ s.node.job.given = none ∧
    s.node.job.inOffer = none ∧ s.node.job.current = none ∧ s.node.hold.state = .quieting ∧ s.node.hold.own = some h ∧
    factorSet s.node = 0 ∧ s.node.hold.seen = 0 ∧ s.node.link.queue.length < 14 ∧ downQueued s.node = false

end Sys2Proof.Claims

/-- The quiet count at the KEY (R146): below Q an issue raises it; QUIET_COUNT_REACHED at Q clears the hold at the repeat
issued with clear mode QUIET, and waits for a roll at or after that repeat with QUIET_AT_ROLL. -/
def Sys2Proof.Claims.QuietIssuesAreCounted : Prop :=
  ∀ (s : State) (x : Nat) (h : OwnHold), QuietIssue s x h →
    (s.node.hold.quiet + 1 < (cfg s.node).quietQ → After .cylinderIndex s fun n =>
      n.hold.state = .quieting ∧ n.hold.quiet = s.node.hold.quiet + 1 ∧ n.hold.own = some h) ∧
    (s.node.hold.quiet + 1 = (cfg s.node).quietQ → (cfg s.node).clearMode = .quiet →
      After (.quietCountReached .cylinderIndex) s fun n =>
        n.hold.state = .clear ∧ n.hold.own = none ∧ n.hold.wanted = some (.clear x h.causes) ∧
        n.track.newestIssued = some x) ∧
    (s.node.hold.quiet + 1 = (cfg s.node).quietQ → (cfg s.node).clearMode = .quietAtRoll →
      After (.quietCountReached .cylinderIndex) s fun n =>
        n.hold.state = .waitingRoll ∧ n.hold.target = some x ∧ n.hold.own = some h ∧ n.track.newestIssued = some x)

/-- The Hold Unit with an own open hold takes its factors: one that enters grows the cause set, keeps the first repeat and
returns the state to HELD, and a SET with the grown set is offered (R145); in HELD an empty factor set begins QUIETING unless
the clear mode is MANUAL (R146). -/
def Sys2Proof.Claims.FactorsGrowTheHold : Prop :=
  ∀ (n : Node) (h : OwnHold), holdWorks n = true → n.hold.own = some h → n.hold.state ≠ .clear →
    n.hold.inOffer = none → n.hold.waiting = false → n.link.queue.length < 16 → downQueued n = false →
    let t := holdSettle n
    let entering := factorSet n &&& ~~~n.hold.seen
    let grown := h.causes ||| entering
    (entering ≠ 0 →
      t.hold.state = .held ∧ t.hold.own = some { first := h.first, causes := grown } ∧ t.hold.quiet = 0 ∧
      t.hold.target = none ∧ (grown = h.causes → t.hold.wanted = n.hold.wanted) ∧
      (grown ≠ h.causes → t.hold.wanted = some (.set h.first grown)) ∧
      (grown ≠ h.causes → n.hold.wanted ≠ some (.set h.first grown) →
        t.link.queue = n.link.queue ++ [{ telegram := .holdSet h.first grown, restate := false, offerBy := .hold }])) ∧
    (factorSet n = 0 → t.hold.own = some h ∧
      (n.hold.state = .held → (cfg n).clearMode ≠ .manual →
        t.hold.state = .quieting ∧ t.hold.quiet = 0 ∧ t.port.attention &&& attHold = attHold) ∧
      (n.hold.state ≠ .held ∨ (cfg n).clearMode = .manual → t.hold.state = n.hold.state))

/-- ROLL in WAITING_ROLL with no factor (R147): a roll without the restate flag whose last repeat is at or after the roll
target clears the hold at that last repeat; an earlier or a restated one changes nothing in it. -/
def Sys2Proof.Claims.RollsClearWaitingHolds : Prop :=
  ∀ (o : Origin) (s : State) (p : RollContent) (h : OwnHold) (t : Nat), HearsAnother o s →
    heldAs s.node o.sender .rewind = true → rollClashes s.node.roll.list p = false → holdWorks s.node = true →
    s.node.hold.state = .waitingRoll → s.node.hold.target = some t → s.node.hold.own = some h →
    factorSet s.node = 0 → s.node.hold.seen = 0 → s.node.hold.inOffer = none → s.node.hold.waiting = false →
    s.node.link.queue.length < 15 → downQueued s.node = false →
    let last := lastIn repeatRange p.first p.count
    (o.restate = false → repeatAtOrAfter last t = true → After (.roll o p) s fun n =>
      n.hold.state = .clear ∧ n.hold.own = none ∧ n.hold.target = none ∧ n.hold.wanted = some (.clear last h.causes) ∧
      ∃ q ∈ n.link.queue, q.telegram = .holdClear last h.causes) ∧
    (o.restate = true ∨ repeatAtOrAfter last t = false → After (.roll o p) s fun n =>
      n.hold.state = .waitingRoll ∧ n.hold.own = some h ∧ n.hold.target = some t)

/-- The life of a hold: its growth, its quiet count and its clear. -/
def Obligations.QuietRepeatsClearTheHold : Prop :=
  Claims.QuietIssuesAreCounted ∧ Claims.FactorsGrowTheHold ∧ Claims.RollsClearWaitingHolds

/-! ### The line link -/

/-- SLOT_START: the next slot of the count starts, 1 again after 31; in the node's own slot, with a telegram of a kind its
state sends at the head of the queue and the line not stuck, the node begins its frame; in any other slot only the count
moves. With the line busy, or in a state that does not track the line, nothing happens. -/
def Obligations.SlotStartCountsOrSends : Prop :=
  ∀ s : State,
    (∀ k : Nat, s.node.link.slot = some k → tracksW s.node = true →
      let next := if k < 31 then k + 1 else 1
      let mine := decide ((s.node.link.w + next - 1) % 31 + 1 = (cfg s.node).station)
      (mine = false → Gives .slotStart s { s.node with link := { s.node.link with slot := some next } }) ∧
      (∀ e rest, s.node.link.queue = e :: rest → mine = true → s.node.link.stuck = false → sendsKind s.node e.telegram = true →
        After .slotStart s fun n =>
          n.link.sending = true ∧ n.link.slot = none ∧ n.link.queue = s.node.link.queue ∧
          txBits n = frameBits (cfg s.node).station e.restate e.telegram) ∧
      (s.node.link.stuck = true ∨ (∀ e, s.node.link.queue.head? = some e → sendsKind s.node e.telegram = false) →
        Gives .slotStart s { s.node with link := { s.node.link with slot := some next } })) ∧
    (s.node.link.slot = none ∨ tracksW s.node = false → Gives .slotStart s s.node)

/-- Every telegram that fits Table 15, sent by a station, passes the receiver's checks: removing the stuffing gives the
fields back, the CRC agrees, and the payload length is one the table allows. -/
def Obligations.SentFramesPassTheChecks : Prop :=
  ∀ (sender : Nat) (restate : Bool) (t : Telegram), wfStation sender = true → t.wf = true →
    (∀ p, t ≠ .undefined p) →
    destuff (stuff (frameFields sender restate t)) = some (frameFields sender restate t) ∧
    frameGood (stuff (frameFields sender restate t)) = true

/-- A frame with a coding fault, a wrong CRC or a length its kind does not have is voided by a JOINED or BENCHED node, which
counts one void raised, and is only noted as faulty by a LISTENING, JOINING or MUTED node; a good one is not. -/
def Obligations.FrameCheckVoidsFaultyFrames : Prop :=
  ∀ (bits : List Bool) (s : State), s.node.link.sending = false → tracksW s.node = true →
    (frameGood bits = false → appliesFrames s.node = true →
      Gives (.frameCheck bits) s { s.node with link := { s.node.link with
        slot := none, silentMs := 0, faulty := true, drove := true, raised := s.node.link.raised + 1 } }) ∧
    (frameGood bits = false → appliesFrames s.node = false →
      Gives (.frameCheck bits) s { s.node with link := { s.node.link with slot := none, silentMs := 0, faulty := true } }) ∧
    (frameGood bits = true →
      Gives (.frameCheck bits) s { s.node with link := { s.node.link with slot := none, silentMs := 0 } })

/-- The end of an own attempt, voided or cut short, in a JOINED node with no DOWN queued: below the third the telegram stays
at the head with its count one higher; at the third, voided or cut short, a ROUTINE telegram leaves the queue and is counted
as dropped, and a RECORD one also makes LINK_FAULT active (TELEGRAM_DROPPED). A void makes the node the last sender; a frame
cut short does not move w. -/
def Obligations.AttemptsEndAtTheThird : Prop :=
  ∀ (s : State) (e : QEntry) (rest : List QEntry), s.node.st = .joined → s.node.link.sending = true →
    s.node.link.queue = e :: rest → downQueued s.node = false →
    (s.node.link.attempts < 2 →
      (After (.frameVoided (cfg s.node).station) s fun n =>
        n.link.attempts = s.node.link.attempts + 1 ∧ n.link.queue.head? = some e ∧ n.link.w = (cfg s.node).station ∧
        n.link.ownRun = 0 ∧ n.link.seenVoids = s.node.link.seenVoids + 1 ∧ n.link.sending = false) ∧
      (After .frameCutShort s fun n =>
        n.link.attempts = s.node.link.attempts + 1 ∧ n.link.queue.head? = some e ∧ n.link.w = s.node.link.w ∧
        n.link.ownRun = 0 ∧ n.link.seenVoids = s.node.link.seenVoids + 1 ∧ n.link.sending = false)) ∧
    (∀ by_, (by_ = .frameCutShort ∨ by_ = .frameVoided (cfg s.node).station) →
      s.node.link.attempts = 2 → (∀ p, e.telegram ≠ .join p) → rest.length < 16 →
      let w := if by_ = .frameCutShort then s.node.link.w else (cfg s.node).station
      (e.telegram.routine = true →
        After (.telegramDropped by_) s fun n =>
          n.link.attempts = 0 ∧ n.link.dropped = s.node.link.dropped + 1 ∧ n.link.w = w ∧
          (∀ q, n.link.queue.head? = some q → rest.head? = some q ∨ rest = [])) ∧
      (e.telegram.routine = false →
        After (.telegramDropped by_) s fun n =>
          n.link.attempts = 0 ∧ n.link.linkFault = true ∧ n.link.ownRun = 0 ∧ n.link.w = w ∧
          (rest.length < 14 → n.link.dropped = s.node.link.dropped + 1) ∧
          (∀ q, n.link.queue.head? = some q → rest.head? = some q ∨ rest = [])))

/-- Ends of another sender's frame at a JOINED or BENCHED node that voided it: the void run rises, and at 16 the node is
MUTED with cause VOIDING with an empty queue (VOID_RUN_LIMIT). A frame the node did not void returns the run to 0. -/
def Sys2Proof.Claims.SixteenVoidsMuteTheNode : Prop :=
  ∀ (s : State) (sender : Nat), appliesFrames s.node = true → s.node.link.sending = false →
    (s.node.link.drove = true → s.node.link.voidRun < 15 →
      After (.frameVoided sender) s fun n =>
        n.link.voidRun = s.node.link.voidRun + 1 ∧ n.link.w = sender ∧ n.link.drove = false ∧ n.st = s.node.st) ∧
    (s.node.link.drove = false →
      After (.frameVoided sender) s fun n => n.link.voidRun = 0 ∧ n.link.w = sender ∧ n.st = s.node.st) ∧
    (s.node.link.drove = true → s.node.link.voidRun = 15 → downQueued s.node = false →
      After (.voidRunLimit (.frameVoided sender)) s fun n =>
        n.st = .muted ∧ n.muteCause = some .voiding ∧ n.link.queue = [] ∧ n.link.attempts = 0 ∧
        n.track.table = s.node.track.table ∧ n.roll.list = s.node.roll.list)

/-- A difference inside the header makes the sender drive a clash mark of 20 DOMINANT bit times and mutes it for CLASH; one
elsewhere stops its driving, and a clash mark behind it mutes it too. A muted node's queue is empty; if a DOWN was queued it is
DOWN, and keeps the cause of the muting there, the model's reading (log entry 8). That the mark stands in the state from the command to the next idle gap or millisecond is the model's choice
(log entry 49). -/
def Sys2Proof.Claims.ClashesMuteTheSender : Prop :=
  ∀ s : State, s.node.link.sending = true →
    (downQueued s.node = true →
      (s.node.link.stopped = false →
        After (.senderBitDifference true) s fun n => n.st = .down ∧ n.muteCause = some .clash ∧ n.link.sending = false ∧
          n.link.queue = [] ∧ dominantBits n = 20) ∧
      (s.node.link.stopped = true →
        After .clashMarkDetected s fun n => n.st = .down ∧ n.muteCause = some .clash ∧ n.link.sending = false ∧ n.link.queue = [])) ∧
    (downQueued s.node = false → s.node.link.stopped = false →
      (After (.senderBitDifference true) s fun n =>
        n.st = .muted ∧ n.muteCause = some .clash ∧ n.link.queue = [] ∧ n.link.sending = false ∧ txBits n = [] ∧
        dominantBits n = 20) ∧
      Gives (.senderBitDifference false) s { s.node with link := { s.node.link with stopped := true } }) ∧
    (downQueued s.node = false → s.node.link.stopped = true →
      After .clashMarkDetected s fun n =>
        n.st = .muted ∧ n.muteCause = some .clash ∧ n.link.queue = [] ∧ n.link.sending = false)

/-- SECOND_STATION_NUMBER (R25): a frame of any kind completes with the node's own station number and is not the one it sends. A
LISTENING, JOINING or for VOIDING MUTED node is MUTED with cause CLASH, applies nothing and has an empty queue. A JOINED or
BENCHED node counts the frame as completed and is then MUTED or DOWN with the cause CLASH, which DOWN keeps, the model's reading
(log entry 8), and an empty queue. For PRESENT, DOWN, RESUME, REGISTER and SHADE: MUTED, and DOWN where a DOWN is queued (R32); a
SHADE is applied to its record first. -/
def Sys2Proof.Claims.SecondStationNumbersMute : Prop :=
  ∀ (o : Origin) (t : Telegram) (s : State), o.sender = (cfg s.node).station → tracksW s.node = true →
    (∀ e, s.node.link.sending = true → s.node.link.queue.head? = some e → e.telegram ≠ t ∨ e.restate ≠ o.restate) →
    (s.node.st = .muted → s.node.muteCause ≠ some .clash) →
    (appliesFrames s.node = false → downQueued s.node = false →
      After (frameOf o t) s fun n =>
        n.st = .muted ∧ n.muteCause = some .clash ∧ n.link.queue = [] ∧ n.link.attempts = 0 ∧ n.link.sending = false ∧
        n.link.w = o.sender ∧ n.link.completed = s.node.link.completed ∧ n.port.attention &&& attNode = attNode ∧
        n.track = s.node.track ∧ n.peers = s.node.peers ∧ n.job = s.node.job ∧ n.roll = s.node.roll) ∧
    (appliesFrames s.node = true →
      After (frameOf o t) s fun n =>
        (n.st = .muted ∨ n.st = .down) ∧ n.muteCause = some .clash ∧ n.link.queue = [] ∧ n.link.attempts = 0 ∧
        n.link.sending = false ∧ n.link.w = o.sender ∧ n.link.completed = s.node.link.completed + 1) ∧
    (appliesFrames s.node = true →
      (t = .present ∨ (∃ c, t = .down c) ∨ (∃ p, t = .resume p) ∨ (∃ p, t = .register p) ∨ ∃ p, t = .shade p) →
      After (frameOf o t) s fun n =>
        n.st = (if downQueued s.node then .down else .muted) ∧ n.port.attention &&& attNode = attNode ∧
        ∀ p, t = .shade p → heldAs s.node o.sender .shade = true →
          n.track.table = s.node.track.table.map fun r =>
            if r.number = p.number then { r with shade := some { grade := p.grade, left := p.left, right := p.right } } else r)

/-- Muting: FRAME_VOIDED and VOID_RUN_LIMIT, SENDER_BIT_DIFFERENCE and CLASH_MARK_DETECTED, and a second station number. -/
def Obligations.VoidsAndClashesMute : Prop :=
  Claims.SixteenVoidsMuteTheNode ∧ Claims.ClashesMuteTheSender ∧ Claims.SecondStationNumbersMute

/-- LINE_STUCK: a node that tracks the line and sends or hears no frame makes LINE_STUCK and LINK_FAULT active, and keeps
its queue and attempt count but for what its Hold Unit offers behind them; while stuck it begins no frame in any slot. A frame
on the line is treated as cut short, and an own one is given up with its telegram kept at the head. At the idle gap (LINE_IDLE) LINE_STUCK
ends, and slot counting starts again with w unchanged. The queue stands there but for what is not to be sent again: a kind that
a BENCHED node does not send (R22), and the ROLL of an abandoned piece, the model's reading (log entry 55). -/
def Obligations.StuckLinesEndAtTheIdleGap : Prop :=
  ∀ s : State, tracksW s.node = true →
    (s.node.link.stuck = false →
      After (.lineStuck false) s fun n =>
        n.link.stuck = true ∧ n.link.linkFault = true ∧ n.link.ownRun = 0 ∧ n.link.sending = false ∧
        n.link.w = s.node.link.w ∧ n.link.attempts = s.node.link.attempts ∧
        (s.node.link.queue.length < 16 → ∃ more, n.link.queue = s.node.link.queue ++ more) ∧
        n = { s.node with link := n.link, hold := n.hold, port := n.port }) ∧
    (s.node.link.stuck = false → s.node.st = .joined → s.node.link.sending = true ∨ s.node.link.drove = false →
      After (.lineStuck true) s fun n =>
        n.link.stuck = true ∧ n.link.linkFault = true ∧ n.link.ownRun = 0 ∧ n.link.sending = false ∧
        n.link.w = s.node.link.w ∧ n.link.attempts = s.node.link.attempts ∧
        n.link.seenVoids = s.node.link.seenVoids + 1 ∧
        (∀ e rest, s.node.link.queue = e :: rest → n.link.queue.head? = some e) ∧
        (s.node.link.queue.length < 16 → ∃ more, n.link.queue = s.node.link.queue ++ more) ∧
        n = { s.node with link := n.link, hold := n.hold, port := n.port }) ∧
    (s.node.link.stuck = true → After .slotStart s fun n =>
      n.link.sending = s.node.link.sending ∧ n.link.queue = s.node.link.queue ∧ n.link.attempts = s.node.link.attempts ∧
      n.link.stuck = true) ∧
    (s.node.link.sending = false →
      (∀ e ∈ s.node.link.queue, abandonedRoll s.node.roll.awaiting e = false) →
      (s.node.st = .benched → ∀ e ∈ s.node.link.queue, benchedKind e.telegram = true) →
      Gives .lineIdle s { s.node with link := { s.node.link with
        stuck := false, slot := some 0, silentMs := 0, clashMark := 0 } }) ∧
    (s.node.link.sending = false →
      After .lineIdle s fun n =>
        n.link.stuck = false ∧ n.link.slot = some 0 ∧ n.link.w = s.node.link.w ∧ n.link.dropped = s.node.link.dropped ∧
        (∀ e, e ∈ n.link.queue ↔ e ∈ s.node.link.queue ∧ abandonedRoll s.node.roll.awaiting e = false ∧
          (s.node.st = .benched → benchedKind e.telegram = true)) ∧
        n = { s.node with link := n.link, port := n.port }) ∧
    (s.node.link.sending = true → After .lineIdle s fun n =>
      n.link.queue = s.node.link.queue ∧ n.link.attempts = s.node.link.attempts ∧ n.link.stuck = false ∧ n.link.sending = true) ∧
    (∀ (kept : List RollContent) (e : QEntry), abandonedRoll kept e = true ↔
      e.offerBy = .roll ∧ ∃ c, e.telegram = .roll c ∧ ∀ k ∈ kept, k.number ≠ c.number)

/-- REJOIN: the 64th good frame of another sender makes a node MUTED with cause VOIDING rejoin: LISTENING with reset cause
REJOIN and a listen time of 20 ms, every replica empty, w the frame's sender, its sixteen counters kept. -/
def Obligations.SixtyFourGoodFramesRejoin : Prop :=
  ∀ (s : State) (o : Origin) (t : Telegram), s.node.st = .muted → s.node.muteCause = some .voiding →
    s.node.link.goodRun = 63 → s.node.link.faulty = false → s.node.link.sending = false → o.sender ≠ (cfg s.node).station →
    After (.rejoin (.completed o t)) s fun n =>
      n.st = .listening ∧ n.muteCause = none ∧ n.resetCause = .rejoin ∧ n.benchMark = s.node.benchMark ∧
      n.image = s.node.image ∧ n.link.listen = some 20 ∧ n.link.heardEnd = false ∧ n.link.w = o.sender ∧
      n.link.queue = [] ∧ n.link.newestRepeat = none ∧ n.link.newestRoll = none ∧ n.link.newestBatch = none ∧
      n.link.newestJob = none ∧ n.link.completed = s.node.link.completed ∧ n.link.dropped = s.node.link.dropped ∧
      n.link.raised = s.node.link.raised ∧ n.link.seenVoids = s.node.link.seenVoids ∧
      n.link.discarded = s.node.link.discarded ∧ n.track.missed = s.node.track.missed ∧
      n.track.unclaimed = s.node.track.unclaimed ∧ n.track.evictions = s.node.track.evictions ∧
      n.track.spliceOverflows = s.node.track.spliceOverflows ∧ n.roll.planRefusals = s.node.roll.planRefusals ∧
      n.roll.cutsMoved = s.node.roll.cutsMoved ∧ n.roll.lateDecisions = s.node.roll.lateDecisions ∧
      n.port.refusals = s.node.port.refusals ∧ n.label.printed = s.node.label.printed ∧
      n.label.diverted = s.node.label.diverted ∧
      n.peers = resetPeers ∧ n.track.table = [] ∧ n.track.tracker = .idle ∧ n.job = {} ∧ n.batch = {} ∧
      n.hold.own = none ∧ n.hold.list = [] ∧ n.roll.list = [] ∧ n.roll.departed = [] ∧ n.label.queue = [] ∧
      n.trig.entries = [] ∧ n.travel.position = s.node.travel.position ∧ n.travel.debt = s.node.travel.debt ∧
      n.marks.stray = s.node.marks.stray ∧ n.port.attention &&& attNode = attNode

/-- OWN_COMPLETION_RUN_LIMIT: with LINK_FAULT active and 15 own frames completed in a row, the completion of the next own
PRESENT makes LINK_FAULT inactive, takes it from the queue and starts the send timer again. -/
def Obligations.SixteenOwnCompletionsEndLinkFault : Prop :=
  ∀ (s : State) (e : QEntry) (rest : List QEntry), s.node.st = .joined → s.node.link.sending = true →
    s.node.link.queue = e :: rest → e.telegram = .present → e.restate = false → e.offerBy = .plain →
    s.node.link.refusedOffers = [] →
    s.node.link.linkFault = true → s.node.link.ownRun = 15 → rest.length < 15 →
    After (.ownCompletionRunLimit (.completed { sender := (cfg s.node).station, restate := false } .present)) s fun n =>
      n.link.linkFault = false ∧ n.link.ownRun = 16 ∧ n.link.sendElapsed = some 0 ∧ n.link.attempts = 0 ∧
      n.link.sending = false ∧ n.link.completed = s.node.link.completed + 1 ∧ n.st = .joined ∧
      ∃ more, n.link.queue = rest ++ more

/-- SEND_TIMER: at half the silence limit a JOINED or BENCHED node offers PRESENT if none is queued, and the timer starts
again in either case; before it nothing happens. -/
def Sys2Proof.Claims.SendTimerOffersPresent : Prop :=
  ∀ (s : State) (e : Nat), s.node.link.sendElapsed = some e → appliesFrames s.node = true → downQueued s.node = false →
    ((cfg s.node).silence ≤ 2 * e →
      (presentQueued s.node = false → s.node.link.queue.length < 16 →
        Gives .sendTimer s { s.node with link := { s.node.link with
          sendElapsed := some 0,
          queue := s.node.link.queue ++ [{ telegram := .present, restate := false, offerBy := .plain }] } }) ∧
      (presentQueued s.node = false → 16 ≤ s.node.link.queue.length →
        Gives .sendTimer s { s.node with link := { s.node.link with
          sendElapsed := some 0, discarded := s.node.link.discarded + 1 } }) ∧
      (presentQueued s.node = true →
        Gives .sendTimer s { s.node with link := { s.node.link with sendElapsed := some 0 } })) ∧
    (2 * e < (cfg s.node).silence → Gives .sendTimer s s.node)

/-- LISTEN_TIMER and LISTEN_SILENCE: after its 20 ms a LISTENING node that has heard a frame end offers JOIN and is JOINING;
one that has not goes on, until the line has been silent for W. JOIN carries the role, the colour slot, the reset cause and
the signature. -/
def Sys2Proof.Claims.ListeningEndsInAJoin : Prop :=
  ∀ s : State, s.node.st = .listening →
    let join : QEntry := { telegram := .join { role := (cfg s.node).role, slot := (cfg s.node).colourSlot,
                                               cause := s.node.resetCause, signature := s.node.signature },
                           restate := false, offerBy := .join }
    (s.node.link.listen = some 0 → s.node.link.heardEnd = true → s.node.link.queue = [] →
      After .listenTimer s fun n =>
        n.st = .joining ∧ n.link.queue = [join] ∧ n.link.listen = none ∧ n.port.attention &&& attNode = attNode) ∧
    (s.node.link.listen = some 0 → s.node.link.heardEnd = false →
      Gives .listenTimer s { s.node with link := { s.node.link with listen := none } }) ∧
    (s.node.link.listen = none → s.node.link.heardEnd = false → s.node.link.queue = [] →
      (cfg s.node).silence ≤ s.node.link.silentMs →
      After .listenSilence s fun n =>
        n.st = .joining ∧ n.link.queue = [join] ∧ n.port.attention &&& attNode = attNode)

/-- A frame end heard by a LISTENING node (R35), be the frame voided, cut short or another station's of any kind that completes:
while the 20 ms run it is noted; after them it lets the node offer JOIN and become JOINING. -/
def Sys2Proof.Claims.FirstFrameEndsLetAListenerJoin : Prop :=
  ∀ (s : State) (c : Instr), s.node.st = .listening → s.node.link.sending = false →
    (c = .frameCutShort ∨ (∃ k, c = .frameVoided k) ∨ (∃ o t, o.sender ≠ (cfg s.node).station ∧ c = frameOf o t)) →
    let join : QEntry := { telegram := .join { role := (cfg s.node).role, slot := (cfg s.node).colourSlot,
                                               cause := s.node.resetCause, signature := s.node.signature },
                           restate := false, offerBy := .join }
    (s.node.link.listen = none → s.node.link.queue = [] →
      After c s fun n => n.st = .joining ∧ n.link.queue = [join] ∧ n.link.heardEnd = true ∧
        n.port.attention &&& attNode = attNode) ∧
    (∀ k, s.node.link.listen = some k →
      After c s fun n => n.st = .listening ∧ n.link.queue = s.node.link.queue ∧ n.link.heardEnd = true ∧
        n.link.listen = some k)

/-- SEND_TIMER, LISTEN_TIMER and LISTEN_SILENCE, and the frame end that ends LISTENING. -/
def Obligations.SendAndListenTimers : Prop :=
  Claims.SendTimerOffersPresent ∧ Claims.ListeningEndsInAJoin ∧ Claims.FirstFrameEndsLetAListenerJoin

/-- RESUME_WINDOW_CLOSE: the window of a JOINED node closes and each owner starts its numbering from the newest number heard
plus one, or from 1: the KEY its repeats, and its jobs with no request held, the SHADE node its batch codes with no opening
held, the REWIND node its rolls. -/
def Sys2Proof.Claims.OwnersStartTheirNumbers : Prop :=
  ∀ s : State, s.node.link.resume = some 0 → isJoined s.node = true →
    After .resumeWindowClose s fun n =>
      n.link.resume = none ∧
      (isRole s.node .key = true →
        n.track.nextRepeat = some (numberAfter repeatRange s.node.link.newestRepeat) ∧ n.track.running = true ∧
        n.track.prevIndex = none ∧
        (s.node.job.held = [] → n.job.nextJob = some (numberAfter jobRange s.node.link.newestJob))) ∧
      (isRole s.node .shade = true → s.node.batch.heldOpenings = [] →
        n.batch.nextCode = some (numberAfter batchRange s.node.link.newestBatch)) ∧
      (isRole s.node .rewind = true → n.roll.nextRoll = some (numberAfter rollRange s.node.link.newestRoll))

/-- The requests held at the KEY are taken at the close in the order of their application: HOLD_ON before CLEAR_HOLD sets a
hold and clears it with no refusal, and a NEW_JOB with a known pattern takes the first job and repeat number. That the window
close sets a hold for standing factors before it takes them is the model's choice (log entry 22). -/
def Sys2Proof.Claims.HeldRequestsAreTakenInOrder : Prop :=
  ∀ s : State, s.node.link.resume = some 0 → isJoined s.node = true → isRole s.node .key = true →
    s.node.link.queue.length < 12 → downQueued s.node = false →
    (s.node.job.held = [.operator true, .operator false] → (cfg s.node).factorMask.getLsbD 9 = true →
      s.node.hold = {} → factorSet s.node = 0 →
      After .resumeWindowClose s fun n =>
        n.hold.state = .clear ∧ n.hold.own = none ∧ n.hold.operator = false ∧ n.port.refusals = s.node.port.refusals ∧
        n.job.held = [] ∧
        n.hold.wanted = some (.clear (s.node.track.newestIssued.getD (numberAfter repeatRange s.node.link.newestRepeat)) 0x200)) ∧
    (∀ q pat, s.node.job.held = [.newJob q] → s.node.job.inOffer = none → q.pattern ≠ 0 →
      findPattern (cfg s.node) q.pattern = some pat →
      After .resumeWindowClose s fun n =>
        n.job.held = [] ∧ n.port.refusals = s.node.port.refusals ∧
        n.job.inOffer = some ({ number := numberAfter jobRange s.node.link.newestJob, pattern := q.pattern,
                                first := numberAfter repeatRange s.node.link.newestRepeat }, q.station))

/-- RESUME_WINDOW_CLOSE. -/
def Obligations.NumberingStartsAtTheWindowClose : Prop :=
  Claims.OwnersStartTheirNumbers ∧ Claims.HeldRequestsAreTakenInOrder

/-! ### Completed frames -/

namespace Sys2Proof.Claims

/-- What the Link Controller and the Peer Table take from another station's frame that completes: w, the counter, the void
run, the sender's entry with silence 0 and PRESENT unless it is DOWN or BENCHED, and no other entry. -/
def Heard (o : Origin) (s : State) (n : Node) : Prop :=
  n.link.w = o.sender ∧ n.link.completed = s.node.link.completed + 1 ∧ n.link.voidRun = 0 ∧ n.st = s.node.st ∧
    (peerAt n o.sender).silence = 0 ∧ (peerAt n o.sender).role = (peerAt s.node o.sender).role ∧
    (peerAt n o.sender).state = (match (peerAt s.node o.sender).state with
      | .down => .down
      | .benched => .benched
      | _ => .present) ∧
    ∀ k, 1 ≤ k → k ≠ o.sender → peerAt n k = peerAt s.node k

/-- The last repeat heard of the sender of `o`, `old` before, takes a newer repeat number `x` (R195). -/
def HeardRepeat (o : Origin) (old : Nat) (x : Nat) (n : Node) : Prop :=
  (peerAt n o.sender).lastRepeat = (if x ≠ 0 ∧ (old = 0 ∨ newer repeatRange x old = true) then x else old)

/-- The last repeat heard of the sender before the frame. -/
def lastHeard (o : Origin) (s : State) : Nat := (peerAt s.node o.sender).lastRepeat

end Sys2Proof.Claims

/-- PRESENT and a telegram with an undefined code are frames heard from their sender: link, Peer Table and the Hold Unit's
settling, and nothing else. A REGISTER or SHADE with an undefined code (kinds 7 and 8) also raises the sender's last repeat
heard, the model's reading (log entry 45). -/
def Sys2Proof.Claims.HeardFramesMarkTheSender : Prop :=
  ∀ (o : Origin) (s : State) (p : UndefinedPayload), HearsAnother o s →
    (After (.present o) s fun n => Heard o s n ∧ (peerAt n o.sender).lastRepeat = lastHeard o s ∧
      n = { s.node with link := n.link, peers := n.peers, hold := n.hold, port := n.port }) ∧
    (After (.undefinedCodeTelegram o p) s fun n => Heard o s n ∧
      (p.kind = 7 ∨ p.kind = 8 → HeardRepeat o (lastHeard o s) p.number n) ∧
      (p.kind ≠ 7 → p.kind ≠ 8 → (peerAt n o.sender).lastRepeat = lastHeard o s) ∧
      n = { s.node with link := n.link, peers := n.peers, hold := n.hold, port := n.port })

/-- DOWN from another station: its entry stands DOWN with the cause carried and silence 0; other entries and other blocks
are left but for the Hold Unit's settling. -/
def Sys2Proof.Claims.DownMarksTheEntry : Prop :=
  ∀ (o : Origin) (s : State) (cause : ResetCause), HearsAnother o s →
    After (.down o cause) s fun n =>
      (peerAt n o.sender).state = .down ∧ (peerAt n o.sender).cause = some cause ∧ (peerAt n o.sender).silence = 0 ∧
      (∀ k, 1 ≤ k → k ≠ o.sender → peerAt n k = peerAt s.node k) ∧
      n.link.completed = s.node.link.completed + 1 ∧
      n = { s.node with link := n.link, peers := n.peers, hold := n.hold, port := n.port }

/-- PRESENT, UNDEFINED_CODE_TELEGRAM and DOWN from another station. -/
def Obligations.HeardFramesAndDown : Prop :=
  Claims.HeardFramesMarkTheSender ∧ Claims.DownMarksTheEntry

/-- JOIN from another station in no conflict with a learnt role: its entry is replaced, PRESENT with the carried role, slot,
cause and signature, learnt, silence 0 and no repeat heard; the restart count rises when the entry was known and the cause
is not REJOIN; a RESUME of this node is queued while there is room. -/
def Sys2Proof.Claims.JoinReplacesTheEntry : Prop :=
  ∀ (o : Origin) (s : State) (p : JoinPayload), HearsAnother o s → isJoined s.node = true →
    s.node.link.queue.length < 10 → downQueued s.node = false →
    (∀ k, 1 ≤ k → k ≤ 31 → k ≠ o.sender → ∀ q, (peerAt s.node k).role = some q → rolesConflict (p.role, p.slot) q = false) →
    After (.join o p) s fun n =>
      (peerAt n o.sender).state = .present ∧ (peerAt n o.sender).role = some (p.role, p.slot) ∧
      (peerAt n o.sender).learnt = true ∧ (peerAt n o.sender).cause = some p.cause ∧
      (peerAt n o.sender).signature = some p.signature ∧ (peerAt n o.sender).silence = 0 ∧
      (peerAt n o.sender).lastRepeat = 0 ∧
      (peerAt n o.sender).restarts =
        (if (peerAt s.node o.sender).state ≠ .absent ∧ p.cause ≠ .rejoin
         then min 255 ((peerAt s.node o.sender).restarts + 1) else (peerAt s.node o.sender).restarts) ∧
      (∀ k, 1 ≤ k → k ≠ o.sender → peerAt n k = peerAt s.node k) ∧ n.st = .joined ∧
      (∃ q ∈ n.link.queue, ∃ r, q.telegram = .resume r)

/-- RESUME from another station in no conflict: its entry takes the carried role and slot and the learnt mark. In this
node's own resume window the newest-heard numbers rise to those carried and a newer job record becomes the given job;
outside it they stay. -/
def Sys2Proof.Claims.ResumeTeachesRoleAndNumbers : Prop :=
  ∀ (o : Origin) (s : State) (p : ResumePayload), HearsAnother o s → isJoined s.node = true →
    (∀ k, 1 ≤ k → k ≤ 31 → k ≠ o.sender → ∀ q, (peerAt s.node k).role = some q → rolesConflict (p.role, p.slot) q = false) →
    After (.resume o p) s fun n =>
      (peerAt n o.sender).role = some (p.role, p.slot) ∧ (peerAt n o.sender).learnt = true ∧ n.st = .joined ∧
      (s.node.link.resume = none →
        n.link.newestRepeat = s.node.link.newestRepeat ∧ n.link.newestRoll = s.node.link.newestRoll ∧
        n.link.newestBatch = s.node.link.newestBatch ∧ n.link.newestJob = s.node.link.newestJob ∧ n.job = s.node.job) ∧
      (s.node.link.resume.isSome = true →
        n.link.newestRepeat = raiseNumber repeatRange s.node.link.newestRepeat p.newestRepeat ∧
        n.link.newestRoll = raiseNumber rollRange s.node.link.newestRoll p.newestRoll ∧
        n.link.newestBatch = raiseNumber batchRange s.node.link.newestBatch p.newestBatch ∧
        (∀ j, p.job = some j →
          n.link.newestJob = raiseNumber jobRange s.node.link.newestJob j.number ∧
          n.job.given = (match s.node.job.given with
            | none => some j
            | some g => if newer jobRange j.number g.number then some j else some g)))

/-- A JOIN or RESUME that records a role in conflict with one learnt station k that is not BENCHED (R194): the higher of the
two station numbers is benched. When it is another station, its entry is BENCHED, its OPEN hold is closed, and this node stays
JOINED. When it is this node, the node is BENCHED with the bench mark (R191), its own entry too, and only PRESENT and RESUME
stay queued (R22); to a JOIN it still offers RESUME (R36). -/
def Sys2Proof.Claims.ConflictsBenchTheHigherStation : Prop :=
  ∀ (o : Origin) (s : State) (c : Instr) (role : Role) (slot k : Nat) (q : Role × Nat), HearsAnother o s →
    isJoined s.node = true → s.node.link.queue.length < 10 → downQueued s.node = false →
    ((∃ p : JoinPayload, c = .join o p ∧ p.role = role ∧ p.slot = slot) ∨
      ∃ p : ResumePayload, c = .resume o p ∧ p.role = role ∧ p.slot = slot) →
    1 ≤ k → k ≤ 31 → k ≠ o.sender → (peerAt s.node k).role = some q → (peerAt s.node k).learnt = true →
    (peerAt s.node k).state ≠ .benched → rolesConflict (role, slot) q = true →
    (∀ j, 1 ≤ j → j ≤ 31 → j ≠ o.sender → j ≠ k → ∀ r, (peerAt s.node j).role = some r →
      rolesConflict (role, slot) r = false) →
    let b := max o.sender k
    After c s fun n =>
      (peerAt n b).state = .benched ∧ (peerAt n o.sender).role = some (role, slot) ∧
      (∀ h ∈ n.hold.list, h.station = b → h.last.isSome = true) ∧
      (∀ j, 1 ≤ j → j ≠ o.sender → j ≠ b → peerAt n j = peerAt s.node j) ∧
      (b ≠ (cfg s.node).station → n.st = .joined ∧ n.benchMark = s.node.benchMark) ∧
      (b = (cfg s.node).station → n.st = .benched ∧ n.benchMark = true ∧ n.port.attention &&& attNode = attNode ∧
        ∀ e ∈ n.link.queue, benchedKind e.telegram = true) ∧
      ((∃ p, c = .join o p) → ∃ e ∈ n.link.queue, ∃ r, e.telegram = .resume r)

/-- A JOIN in no conflict starts the restates of an owner that has none in offer (R36, R39): a node with an own open hold offers
it as HOLD SET (R149); the REWIND node its oldest listed roll, with the others to follow (R173); the SHADE node its open batch,
OPENED first and FIXED to follow when it is fixed, and nothing while its own batch is none, not the open one or in offer (R137). -/
def Sys2Proof.Claims.JoinsStartTheRestates : Prop :=
  ∀ (o : Origin) (s : State) (p : JoinPayload), HearsAnother o s → isJoined s.node = true →
    s.node.link.queue.length < 10 → downQueued s.node = false →
    (∀ k, 1 ≤ k → k ≤ 31 → k ≠ o.sender → ∀ q, (peerAt s.node k).role = some q → rolesConflict (p.role, p.slot) q = false) →
    After (.join o p) s fun n =>
      (∀ h, s.node.hold.own = some h → s.node.link.restHold.busy = false →
        ∃ e ∈ n.link.queue, e.telegram = .holdSet h.first h.causes ∧ e.restate = true ∧ e.offerBy = .restateHold) ∧
      (∀ c rest, isRole s.node .rewind = true → s.node.roll.list = c :: rest → s.node.link.restRoll.busy = false →
        n.link.restRoll = { items := rest.map (·.number), busy := true } ∧
        ∃ e ∈ n.link.queue, e.telegram = .roll c ∧ e.restate = true ∧ e.offerBy = .restateRoll) ∧
      (∀ w b, isRole s.node .shade = true → s.node.batch.own = some w → s.node.batch.list.getLast? = some b →
        (s.node.batch.list.find? fun x => decide (x.code = b.code)) = some b → s.node.link.restBatch.busy = false →
        b.code = w.code → b.state ≠ .closed → s.node.batch.inOffer = 0 →
        n.link.restBatch = { items := if b.state = .fixed then [(b.code, true)] else [], busy := true } ∧
        ∃ e ∈ n.link.queue, e.telegram = .batchOpened { code := w.code, first := b.first, reason := w.reason } ∧
          e.restate = true ∧ e.offerBy = .restateBatch) ∧
      (isRole s.node .shade = false ∨ s.node.batch.own = none ∨ s.node.batch.inOffer ≠ 0 ∨
          (∀ b, s.node.batch.list.getLast? = some b →
            b.state = .closed ∨ ∀ w, s.node.batch.own = some w → b.code ≠ w.code) →
        ∀ e ∈ n.link.queue, e.offerBy = .restateBatch → e ∈ s.node.link.queue)

/-- The own JOIN of a JOINING node completes (R35, R191, R192), its role in no conflict: the node is JOINED, or BENCHED with the
bench mark; its resume window of 50 ms opens and its send timer starts; its own entry holds its role, slot, cause and signature
and is learnt, PRESENT or BENCHED like the node; no other entry changes. That this frame counts as completed is the model's
reading (log entry 17). -/
def Sys2Proof.Claims.OwnJoinsLetTheNodeIn : Prop :=
  ∀ s : State, s.node.st = .joining → s.node.link.sending = true → s.node.link.refusedOffers = [] →
    wfStation (cfg s.node).station = true → s.node.peers.length = 31 →
    let p : JoinPayload := { role := (cfg s.node).role, slot := (cfg s.node).colourSlot, cause := s.node.resetCause,
                             signature := s.node.signature }
    s.node.link.queue.head? = some { telegram := .join p, restate := false, offerBy := .join } →
    (∀ k, 1 ≤ k → k ≤ 31 → k ≠ (cfg s.node).station → ∀ q, (peerAt s.node k).role = some q →
      rolesConflict (p.role, p.slot) q = false) →
    After (.join (ownOrigin s) p) s fun n =>
      n.st = (if s.node.benchMark then .benched else .joined) ∧ n.benchMark = s.node.benchMark ∧
      n.link.resume = some 50 ∧ n.link.sendElapsed = some 0 ∧ n.link.sending = false ∧ n.link.attempts = 0 ∧
      n.link.w = (cfg s.node).station ∧ n.link.completed = s.node.link.completed + 1 ∧
      n.port.attention &&& attNode = attNode ∧
      peerAt n (cfg s.node).station =
        { state := if s.node.benchMark then .benched else .present, role := some (p.role, p.slot), learnt := true,
          cause := some p.cause, signature := some p.signature } ∧
      ∀ k, 1 ≤ k → k ≠ (cfg s.node).station → peerAt n k = peerAt s.node k

/-- JOIN and RESUME from another station, and the own JOIN. -/
def Obligations.JoinAndResumeTeachPeers : Prop :=
  Claims.JoinReplacesTheEntry ∧ Claims.ResumeTeachesRoleAndNumbers ∧ Claims.ConflictsBenchTheHigherStation ∧
    Claims.JoinsStartTheRestates ∧ Claims.OwnJoinsLetTheNodeIn

/-- JOB TAKEN from a station held as KEY with a newer job number: it becomes the given job and the newest job number heard
is raised; JOB REFUSED changes no job. At the requesting station the job answer is written and JOB_ANSWER asserts ATTN. -/
def Sys2Proof.Claims.OutcomesReachTheJob : Prop :=
  ∀ (o : Origin) (s : State) (p : JobPayload), HearsAnother o s →
    (After (.jobTaken o p) s fun n => Heard o s n ∧
      n.link.newestJob = raiseNumber jobRange s.node.link.newestJob p.number ∧
      (heldAs s.node o.sender .key = true → newerThanGiven s.node p.number = true →
        n.job.given = some { number := p.number, pattern := p.pattern, first := p.first } ∧
        n.job.current = s.node.job.current) ∧
      (heldAs s.node o.sender .key = false ∨ newerThanGiven s.node p.number = false → n.job = s.node.job) ∧
      (p.requester = (cfg s.node).station →
        n.port.answer = .taken p.number ∧ n.port.attention &&& attAnswer = attAnswer) ∧
      (p.requester ≠ (cfg s.node).station → n.port.answer = s.node.port.answer)) ∧
    (After (.jobRefused o p) s fun n => Heard o s n ∧ n.job = s.node.job ∧
      n.link.newestJob = raiseNumber jobRange s.node.link.newestJob p.number ∧
      (p.requester = (cfg s.node).station → n.port.answer = .refused ∧ n.port.attention &&& attAnswer = attAnswer))

/-- The JOB TAKEN of the KEY's job in offer, newer than its given job, completes with its own entry held as KEY and no request
held (R72): its given job becomes the offered record, as the
KEY applies it like every node (R67), and the job in offer becomes none. -/
def Sys2Proof.Claims.OwnJobTakenGivesTheJob : Prop :=
  ∀ (s : State) (j : JobRecord) (station : Nat), Sends s (takenTelegram j station) .job →
    s.node.job.inOffer = some (j, station) → s.node.job.held = [] →
    heldAs s.node (cfg s.node).station .key = true → newerThanGiven s.node j.number = true →
    After (.jobTaken (ownOrigin s) { number := j.number, pattern := j.pattern, first := j.first, requester := station }) s fun n =>
      n.job.given = some j ∧ n.job.inOffer = none ∧ n.job.current = s.node.job.current ∧
      n.link.newestJob = raiseNumber jobRange s.node.link.newestJob j.number ∧ n.link.sending = false ∧
      n.link.completed = s.node.link.completed + 1 ∧
      (station = (cfg s.node).station → n.port.answer = .taken j.number ∧ n.port.attention &&& attAnswer = attAnswer)

/-- JOB TAKEN and JOB REFUSED from another station, and the KEY's own JOB TAKEN. -/
def Obligations.JobOutcomesAreApplied : Prop :=
  Claims.OutcomesReachTheJob ∧ Claims.OwnJobTakenGivesTheJob

/-- REPEAT from the station held as KEY with a number newer than every present one: the record is appended, with the carried
job, an empty register row, no nip report, no shade, the code of the newest batch that is not CLOSED, and held by the stations
with an OPEN hold; at 512 records the oldest leaves first. From
any other station, or with an older number, the table stays. Either way the newest repeat number heard is raised and the
sender's entry takes the repeat as its last repeat heard (R195). -/
def Sys2Proof.Claims.RepeatIsAppended : Prop :=
  ∀ (o : Origin) (s : State) (p : RepeatPayload), HearsAnother o s →
    After (.repeat_ o p) s fun n => Heard o s n ∧ HeardRepeat o (lastHeard o s) p.number n ∧
      n.link.newestRepeat = raiseNumber repeatRange s.node.link.newestRepeat p.number ∧
      (heldAs s.node o.sender .key = true → repeatTooOld s.node p.number = false →
        ∃ r, r.number = p.number ∧ r.length = p.length ∧ r.job = p.job ∧ r.splice = p.splice ∧ r.nip = none ∧
          r.shade = none ∧ r.results = List.replicate 8 none ∧
          r.batch = (match (s.node.batch.list.filter fun b => decide (b.state ≠ .closed)).getLast? with
            | some b => b.code
            | none => 0) ∧
          ((∀ h ∈ s.node.hold.list, 1 ≤ h.station) → ∀ k, 1 ≤ k → k ≤ 31 →
            r.heldBy.getLsbD (k - 1) = s.node.hold.list.any fun h => decide (h.station = k) && h.last.isNone) ∧
          n.track.table = (if s.node.track.table.length < 512 then s.node.track.table else s.node.track.table.tail) ++ [r]) ∧
      (heldAs s.node o.sender .key = false ∨ repeatTooOld s.node p.number = true → n.track = s.node.track) ∧
      n.shade = s.node.shade ∧ n.nip = s.node.nip ∧ n.trig = s.node.trig ∧ n.travel = s.node.travel ∧
      n.batch = s.node.batch ∧ n.label = s.node.label

/-- A REPEAT appended to a full table (R44): the oldest record leaves and is counted as an eviction, and the tracker stays. At
an eye a pending one moves the here pointer to it and is counted missed; the REWIND node notes it as its last track gap. -/
def Sys2Proof.Claims.FullTablesEvictTheOldest : Prop :=
  ∀ (o : Origin) (s : State) (p : RepeatPayload) (old : RepeatRecord) (rest : List RepeatRecord), HearsAnother o s →
    heldAs s.node o.sender .key = true → repeatTooOld s.node p.number = false →
    s.node.track.table = old :: rest → rest.length = 511 →
    After (.repeat_ o p) s fun n =>
      n.track.evictions = s.node.track.evictions + 1 ∧ n.track.tracker = s.node.track.tracker ∧
      (eyeRole s.node = true → isPending s.node old = true →
        n.track.here = some old.number ∧ n.track.missed = s.node.track.missed + 1) ∧
      (eyeRole s.node = false ∨ isPending s.node old = false →
        n.track.here = s.node.track.here ∧ n.track.missed = s.node.track.missed) ∧
      n.roll.lastGap = (if isRole s.node .rewind then some old.number else s.node.roll.lastGap)

/-- A REPEAT n with a splice offset, appended at the JOINED REWIND node (R157), plans a waste run from n minus the waste before,
raised to here + 1 when that is not newer than here, to n + 1 plus the waste after. In an empty plan it makes a WASTE entry at
its start and a ROLL entry at its end. A ROLL entry at the start turns WASTE; one between gives its reasons, FULL apart, to the
end; an open WASTE piece that reaches the run is united with it, so only the end is entered (that a piece with no entry after it
reaches every later run is the model's reading, log entry 25). Where eight entries leave no room the splice is counted as
refused and the plan stays. Elsewhere, and without a splice, nothing is planned. -/
def Sys2Proof.Claims.SplicesArePlanned : Prop :=
  ∀ (o : Origin) (s : State) (p : RepeatPayload), HearsAnother o s → heldAs s.node o.sender .key = true →
    repeatTooOld s.node p.number = false → s.node.track.table.length < 512 →
    (isRole s.node .rewind = false ∨ isJoined s.node = false ∨ p.splice = none →
      After (.repeat_ o p) s fun n => n.roll = s.node.roll) ∧
    (∀ off, p.splice = some off → isRole s.node .rewind = true → isJoined s.node = true →
      let u := s.node.roll
      let a0 := subIn repeatRange p.number (cfg s.node).wasteBefore
      let a := match s.node.track.here with
        | some h => if repeatNewer a0 h then a0 else succIn repeatRange h
        | none => a0
      let b := addIn repeatRange p.number (1 + (cfg s.node).wasteAfter)
      let end_ : PlanEntry := { cut := b, reasons := { splice := true }, kind := .roll }
      a ≠ b → repeatNewer a b = false →
      ((∀ pc, u.piece = some pc → pc.kind = .roll) →
        (u.plan = [] → After (.repeat_ o p) s fun n =>
          n.roll = { u with plan := [{ cut := a, reasons := { splice := true }, kind := .waste }, end_] }) ∧
        (∀ e, u.plan = [e] → e.kind = .roll → e.cut = a → After (.repeat_ o p) s fun n =>
          n.roll = { u with plan := [{ e with kind := .waste, reasons := { e.reasons with splice := true } }, end_] }) ∧
        (∀ e, u.plan = [e] → e.kind = .roll → repeatNewer e.cut a = true → repeatNewer b e.cut = true →
          After (.repeat_ o p) s fun n =>
            n.roll = { u with plan := [{ cut := a, reasons := { splice := true }, kind := .waste },
              { end_ with reasons := { e.reasons with full := false, splice := true } }] }) ∧
        (u.plan.length = 8 → (∀ e ∈ u.plan, e.kind = .roll ∧ e.cut ≠ a ∧ e.cut ≠ b ∧
            (repeatNewer e.cut a = false ∨ repeatNewer b e.cut = false)) →
          After (.repeat_ o p) s fun n => n.roll = { u with planRefusals := u.planRefusals + 1 })) ∧
      (∀ pc, u.piece = some pc → pc.kind = .waste → u.plan = [] → repeatNewer a pc.first = true →
        repeatAtOrAfter b pc.first = true → After (.repeat_ o p) s fun n => n.roll = { u with plan := [end_] }))

/-- REPEAT from another station. -/
def Obligations.RepeatAppendsARecord : Prop :=
  Claims.RepeatIsAppended ∧ Claims.FullTablesEvictTheOldest ∧ Claims.SplicesArePlanned

/-- REGISTER from the station held as PRINT with the carried slot (or EMBOSS for slot 8): the record of the number takes the
result in that slot; a nip report from the EMBOSS station marks its record; from a station not held so, the table stays (R45).
SHADE from the station held as SHADE writes the record's shade. No other record, and no block but link, Peer Table, table and
the Hold Unit's settling, changes. The sender's last repeat heard takes a newer number. -/
def Obligations.ResultsEnterTheRecords : Prop :=
  ∀ (o : Origin) (s : State), HearsAnother o s →
    (∀ p : RegisterPayload, (heldAsSlot s.node o.sender .print p.slot = false ∨ p.slot = 0) →
      (heldAsSlot s.node o.sender .emboss 8 = false ∨ p.slot ≠ 8) →
      (p.nip = none ∨ heldAs s.node o.sender .emboss = false) →
      After (.register o p) s fun n => Heard o s n ∧ n.track = s.node.track ∧
        n = { s.node with link := n.link, peers := n.peers, hold := n.hold, port := n.port }) ∧
    (∀ p : RegisterPayload, p.nip = none ∨ heldAs s.node o.sender .emboss = false →
      After (.register o p) s fun n => Heard o s n ∧ HeardRepeat o (lastHeard o s) p.number n ∧
      (1 ≤ p.slot → p.slot ≤ 7 → heldAsSlot s.node o.sender .print p.slot = true →
        n.track = { s.node.track with table := s.node.track.table.map fun r =>
          if r.number = p.number then
            { r with results := r.results.set (p.slot - 1) (some { state := p.state, error := p.error, steps := p.steps }) }
          else r }) ∧
      (p.slot = 8 → heldAsSlot s.node o.sender .emboss 8 = true →
        n.track = { s.node.track with table := s.node.track.table.map fun r =>
          if r.number = p.number then
            { r with results := r.results.set 7 (some { state := p.state, error := p.error, steps := p.steps }) }
          else r }) ∧
      n = { s.node with link := n.link, peers := n.peers, track := n.track, hold := n.hold, port := n.port }) ∧
    (∀ (p : RegisterPayload) (x : Nat) (cov : Coverage), p.nip = some (x, cov) → p.slot = 0 →
      heldAs s.node o.sender .emboss = true →
      After (.register o p) s fun n => Heard o s n ∧ HeardRepeat o (lastHeard o s) p.number n ∧
        n.track = { s.node.track with table := s.node.track.table.map fun r =>
          if r.number = x then { r with nip := some cov } else r } ∧
        n = { s.node with link := n.link, peers := n.peers, track := n.track, hold := n.hold, port := n.port }) ∧
    (∀ (p : RegisterPayload) (x : Nat) (cov : Coverage), p.nip = some (x, cov) → p.slot = 8 →
      heldAsSlot s.node o.sender .emboss 8 = true →
      After (.register o p) s fun n => Heard o s n ∧ HeardRepeat o (lastHeard o s) p.number n ∧
        n = { s.node with link := n.link, peers := n.peers, track := n.track, hold := n.hold, port := n.port } ∧
        let written := s.node.track.table.map fun r =>
          if r.number = p.number then
            { r with results := r.results.set 7 (some { state := p.state, error := p.error, steps := p.steps }) }
          else r
        n.track = { s.node.track with
          table := written.map fun r => if r.number = x then { r with nip := some cov } else r }) ∧
    (∀ p : ShadePayload, After (.shade o p) s fun n => Heard o s n ∧ HeardRepeat o (lastHeard o s) p.number n ∧
      (heldAs s.node o.sender .shade = true →
        n.track = { s.node.track with table := s.node.track.table.map fun r =>
          if r.number = p.number then { r with shade := some { grade := p.grade, left := p.left, right := p.right } } else r }) ∧
      (heldAs s.node o.sender .shade = false → n.track = s.node.track) ∧
      n = { s.node with link := n.link, peers := n.peers, track := n.track, hold := n.hold, port := n.port })

/-- BATCH OPENED from the station held as SHADE with a code not in the list and a first repeat newer than the newest
entry's, and room in the list: the open entries close at the repeat before it, the new entry is FORMING, and every
present record at or after the first repeat takes the code. From another station nothing of this happens. -/
def Sys2Proof.Claims.BatchOpenedEntersTheList : Prop :=
  ∀ (o : Origin) (s : State) (p : BatchPayload), HearsAnother o s → o.restate = false →
    (heldAs s.node o.sender .shade = true → batchPresent s.node p.code = false → batchTooOld s.node p.first = false →
      s.node.batch.list.length < 8 →
      After (.batchOpened o p) s fun n => Heard o s n ∧
        n.link.newestBatch = raiseNumber batchRange s.node.link.newestBatch p.code ∧
        n.batch.list = (s.node.batch.list.map fun b => if b.state = .closed then b else
            { b with last := some (subIn repeatRange p.first 1), state := .closed }) ++
          [{ code := p.code, first := p.first, last := none, reference := none, state := .forming }] ∧
        n.track.table = s.node.track.table.map fun r =>
          if repeatAtOrAfter r.number p.first then { r with batch := p.code } else r) ∧
    (heldAs s.node o.sender .shade = false →
      After (.batchOpened o p) s fun n => n.batch = s.node.batch ∧ n.track = s.node.track ∧ n.roll = s.node.roll)

/-- BATCH FIXED from the station held as SHADE: the entry of the code takes the reference, and FIXED when it was FORMING. -/
def Sys2Proof.Claims.BatchFixedWritesTheReference : Prop :=
  ∀ (o : Origin) (s : State) (p : BatchPayload) (t : Triple), HearsAnother o s →
    After (.batchFixed o p t) s fun n => Heard o s n ∧
      (heldAs s.node o.sender .shade = true →
        n.batch = { s.node.batch with list := s.node.batch.list.map fun b =>
          if b.code = p.code then { b with reference := some t, state := if b.state = .forming then .fixed else b.state } else b }) ∧
      (heldAs s.node o.sender .shade = false → n.batch = s.node.batch) ∧
      n = { s.node with link := n.link, peers := n.peers, batch := n.batch, hold := n.hold, port := n.port }

/-- A new batch at the JOINED REWIND node (R160, R161), its first repeat r: newer than here, a BATCH cut at r; at the boundary
of the open piece, or with no piece, nothing; inside an open ROLL piece, BATCH_LATE and a BATCH cut after here; before the open
piece, the closed pieces awaiting completion and the listed roll are regraded, and the roll is offered as a restated ROLL. -/
def Sys2Proof.Claims.NewBatchesReachTheBuilder : Prop :=
  ∀ (o : Origin) (s : State) (p : BatchPayload), HearsAnother o s → heldAs s.node o.sender .shade = true →
    batchPresent s.node p.code = false → batchTooOld s.node p.first = false → isRole s.node .rewind = true →
    isJoined s.node = true →
    let u := s.node.roll
    (s.node.track.here = none ∨ (∃ h, s.node.track.here = some h ∧ repeatNewer p.first h = true) →
      After (.batchOpened o p) s fun n => n.roll = placeCut u p.first { batch := true }) ∧
    (∀ h, s.node.track.here = some h → repeatNewer p.first h = false →
      (u.piece = none → After (.batchOpened o p) s fun n => n.roll = u) ∧
      (∀ pc, u.piece = some pc → (∀ e ∈ u.plan, e.arming = none) →
        (p.first = pc.first ∨ (repeatAtOrAfter p.first pc.first = true ∧ pc.kind = .waste) →
          After (.batchOpened o p) s fun n => n.roll = u) ∧
        (repeatNewer p.first pc.first = true → p.first ≠ pc.first → pc.kind = .roll →
          After (.batchOpened o p) s fun n =>
            n.roll = placeCut { u with piece := some { pc with batchLate := true } } (succIn repeatRange h) { batch := true }) ∧
        (∀ c, repeatAtOrAfter p.first pc.first = false → u.list = [c] → c.kind = .roll →
          repeatAtOrAfter (lastIn repeatRange c.first c.count) p.first = true →
          s.node.link.queue = [] → s.node.link.refusedOffers = [] →
          let changed := fun (c : RollContent) =>
            if c.kind = .waste ∨ repeatAtOrAfter (lastIn repeatRange c.first c.count) p.first = false then c
            else if repeatAtOrAfter c.first p.first then { c with batch := p.code }
            else { c with grade := .hold, causes := c.causes ||| 0x200 }
          After (.batchOpened o p) s fun n =>
            n.roll = { u with awaiting := u.awaiting.map changed,
                              lateDecisions := u.lateDecisions + (if repeatNewer c.first p.first then 1 else 0) } ∧
            ∃ q ∈ n.link.queue, q.telegram = .roll (changed c) ∧ q.restate = true)))

/-- The SHADE node's own BATCH OPENED completes, its own entry held as SHADE (R128, R135): its openings in offer fall by one. As a new batch it enters the
list, closing the open ones, and sets the own batch: FORMING with the carried code, first repeat and reason, seeded with the OK
repeats of the history at or after the first repeat, each with its mean, FIXED when they are sixteen (R130). Set aside, it leaves the list and the own
batch. -/
def Sys2Proof.Claims.OwnOpenedSetsTheOwnBatch : Prop :=
  ∀ (s : State) (p : BatchPayload), Sends s (.batchOpened p) .opened → isRole s.node .shade = true →
    heldAs s.node (cfg s.node).station .shade = true →
    let seeds := seedRepeats s.node.batch p.first
    (batchPresent s.node p.code = false → batchTooOld s.node p.first = false → s.node.batch.list.length < 8 →
      After (.batchOpened (ownOrigin s) p) s fun n =>
        n.batch.inOffer = s.node.batch.inOffer - 1 ∧ n.link.sending = false ∧
        n.batch.list = (s.node.batch.list.map fun b => if b.state = .closed then b else
            { b with last := some (subIn repeatRange p.first 1), state := .closed }) ++
          [{ code := p.code, first := p.first, last := none, reference := none, state := .forming }] ∧
        (seeds = [] → n.batch.own = some
          { code := p.code, first := p.first, reason := p.reason, phase := .forming, sums := zeroTriple, count := 0,
            reference := zeroTriple, tolerance := zeroTriple }) ∧
        ((∀ g ∈ seeds, g.mean.isSome = true) → ∃ b, n.batch.own = some b ∧ b.code = p.code ∧ b.first = p.first ∧
          b.reason = p.reason ∧ b.count = seeds.length ∧ (b.phase = .fixed ↔ seeds.length = 16))) ∧
    (batchPresent s.node p.code = true ∨ batchTooOld s.node p.first = true →
      After (.batchOpened (ownOrigin s) p) s fun n =>
        n.batch.inOffer = s.node.batch.inOffer - 1 ∧ n.batch.list = s.node.batch.list ∧ n.batch.own = s.node.batch.own)

/-- BATCH_OPENED and BATCH_FIXED, and the own BATCH_OPENED. -/
def Obligations.BatchTelegramsKeepTheList : Prop :=
  Claims.BatchOpenedEntersTheList ∧ Claims.BatchFixedWritesTheReference ∧ Claims.NewBatchesReachTheBuilder ∧
    Claims.OwnOpenedSetsTheOwnBatch

/-- HOLD SET and HOLD CLEAR from a holding station: SET makes an OPEN entry, or widens the one it has to the older first repeat
and the joined causes, and in both cases the station joins the held-by set of every present record from the entry's first
repeat on; CLEAR closes the entry at the carried repeat and the
station leaves the held-by set of every newer record. -/
def Sys2Proof.Claims.HeardHoldsMarkTheRecords : Prop :=
  ∀ (o : Origin) (s : State) (x : Nat) (causes : CauseSet), HearsAnother o s → holdSender s.node o.sender = true →
    s.node.hold.list.length < 32 →
    (openHoldOf s.node o.sender = none →
      After (.holdSet o x causes) s fun n => Heard o s n ∧
        n.hold.list = s.node.hold.list ++ [{ station := o.sender, first := x, last := none, causes := causes }] ∧
        n.track.table = s.node.track.table.map fun r =>
          if repeatAtOrAfter r.number x then { r with heldBy := r.heldBy ||| stationBit o.sender } else r) ∧
    (∀ h, openHoldOf s.node o.sender = some h →
      After (.holdSet o x causes) s fun n => Heard o s n ∧
        n.hold.list = s.node.hold.list.map fun e => if e.station = o.sender ∧ e.last.isNone then
          { e with first := if repeatNewer h.first x then x else h.first, causes := e.causes ||| causes } else e) ∧
    (∀ h, openHoldOf s.node o.sender = some h →
      After (.holdSet o x causes) s fun n =>
        let first := if repeatNewer h.first x then x else h.first
        n.track.table = s.node.track.table.map fun r =>
          if repeatAtOrAfter r.number first then { r with heldBy := r.heldBy ||| stationBit o.sender } else r) ∧
    (After (.holdClear o x causes) s fun n => Heard o s n ∧
      n.hold.list = (s.node.hold.list.map fun e => if e.station = o.sender ∧ e.last.isNone then
        { e with last := some x } else e) ∧
      n.track.table = s.node.track.table.map fun r =>
        if repeatNewer r.number x then { r with heldBy := r.heldBy &&& ~~~stationBit o.sender } else r)

/-- The own HOLD of a JOINED holding node completes, its resume window closed (R149): the statement in offer becomes the last
completed one. When the wanted statement is the same, a CLEAR being the same by its repeat, and no factor changes, none is in
offer then; when it differs, it is offered, and it alone is in offer. -/
def Sys2Proof.Claims.OwnHoldsOfferTheWantedStatement : Prop :=
  ∀ (s : State) (st w : Statement), Sends s (statementTelegram st) .hold → holdRole s.node = true →
    s.node.link.resume = none → s.node.hold.inOffer = some st → s.node.hold.waiting = false →
    s.node.hold.wanted = some w → downQueued s.node = false → s.node.link.queue.length < 16 →
    let same := w = st ∨ ∃ m a b, w = .clear m a ∧ st = .clear m b
    (same → s.node.link.linkFault = false → s.node.hold.seen = factorSet s.node →
      After (frameOf (ownOrigin s) (statementTelegram st)) s fun n =>
        n.hold.lastDone = some st ∧ n.hold.inOffer = none ∧ n.hold.wanted = some w ∧ n.link.sending = false) ∧
    (¬ same → After (frameOf (ownOrigin s) (statementTelegram st)) s fun n =>
      n.hold.lastDone = some st ∧ n.hold.inOffer = some w ∧ n.link.sending = false ∧
      ∃ q ∈ n.link.queue, q.telegram = statementTelegram w ∧ q.restate = false ∧ q.offerBy = .hold)

/-- HOLD SET and HOLD CLEAR from another station, and the own HOLD. -/
def Obligations.HoldsMarkTheRecords : Prop :=
  Claims.HeardHoldsMarkTheRecords ∧ Claims.OwnHoldsOfferTheWantedStatement

/-- ROLL from the station held as REWIND, in no conflict with a listed run: at a node other than LABEL a new roll joins the
list, the repeats of its run leave the table and the newest roll number heard is raised; a listed roll is overwritten. At the
JOINED LABEL node with room a new roll joins the list and is WAITING for the conveyor limit. From another station the list
and the table stay. -/
def Sys2Proof.Claims.RollEntersTheList : Prop :=
  ∀ (o : Origin) (s : State) (p : RollContent), HearsAnother o s → o.restate = false →
    (isRole s.node .label = false → heldAs s.node o.sender .rewind = true → rollClashes s.node.roll.list p = false →
      After (.roll o p) s fun n => Heard o s n ∧
        n.link.newestRoll = raiseNumber rollRange s.node.link.newestRoll p.number ∧
        n.roll.list = (if s.node.roll.list.any (fun c => decide (c.number = p.number)) then
            s.node.roll.list.map fun c => if c.number = p.number then p else c
          else (if s.node.roll.list.length < 16 then s.node.roll.list else s.node.roll.list.tail) ++ [p]) ∧
        n.track.table = s.node.track.table.filter fun r => !inRun repeatRange p.first p.count r.number) ∧
    (isRole s.node .label = true → isJoined s.node = true → heldAs s.node o.sender .rewind = true →
      rollClashes s.node.roll.list p = false → inRollList s.node p.number = false → s.node.roll.list.length < 16 →
      After (.roll o p) s fun n => Heard o s n ∧
        n.roll.list = s.node.roll.list ++ [p] ∧
        dispositionOf n p.number = some (.waiting (s.node.now + 1000 * (cfg s.node).conveyorLimit))) ∧
    (heldAs s.node o.sender .rewind = false →
      After (.roll o p) s fun n => n.roll = s.node.roll ∧ n.track = s.node.track ∧ n.hold.list = s.node.hold.list)

/-- LABELLED from the station held as LABEL: the roll leaves the roll list and joins the departed list with its outcome;
with roll number 0, or from another station, both stay. -/
def Sys2Proof.Claims.LabelledRollsDepart : Prop :=
  ∀ (o : Origin) (s : State) (x : Nat) (out : LabelOutcome), HearsAnother o s →
    After (.labelled o x out) s fun n => Heard o s n ∧
      (heldAs s.node o.sender .label = true → x ≠ 0 →
        n.roll.list = s.node.roll.list.filter (fun c => decide (c.number ≠ x)) ∧
        n.roll.departed = (s.node.roll.departed ++ [(x, out)]).drop (s.node.roll.departed.length + 1 - 16)) ∧
      (heldAs s.node o.sender .label = false ∨ x = 0 → n.roll = s.node.roll) ∧
      n = { s.node with link := n.link, peers := n.peers, roll := n.roll, label := n.label, hold := n.hold, port := n.port }

/-- A single entry is placed in the cut plan (R156): strictly inside a waste run a FULL is dropped and any other reason joins
the run's end; else the reason joins an entry at the repeat, or a new entry stands in its place, or in a full plan it joins the
next entry, or is counted as refused. -/
def Sys2Proof.Claims.PlansTakeCuts : Prop :=
  ∀ (u : RollUnit) (c : Nat) (r : CutReasons),
    let here := u.plan.any fun e => decide (e.cut = c)
    let next := u.plan.find? fun e => repeatNewer e.cut c
    let joined := fun (x : Nat) => { u with plan := u.plan.map fun e =>
      if e.cut = x then { e with reasons := joinReasons e.reasons r } else e }
    (insideWaste u c = true → r.full = true → placeCut u c r = u) ∧
    (∀ e, insideWaste u c = true → r.full = false → next = some e → placeCut u c r = joined e.cut) ∧
    (insideWaste u c = false ∨ (r.full = false ∧ next = none) →
      (here = true → placeCut u c r = joined c) ∧
      (here = false → u.plan.length < 8 →
        placeCut u c r = { u with plan := insertEntry { cut := c, reasons := r, kind := .roll } u.plan }) ∧
      (∀ e, here = false → 8 ≤ u.plan.length → next = some e → placeCut u c r = joined e.cut) ∧
      (here = false → 8 ≤ u.plan.length → next = none → placeCut u c r = { u with planRefusals := u.planRefusals + 1 }))

/-- At a match report of the JOINED REWIND node (R158, R159, R164): with no piece open, in TRACK and with the resume window
closed, the START piece opens at here and is cut at the next repeat, at a real mark as at a synthesised one; with a piece open, a report of a real mark arms the one
due entry, at here, with tag 1 and the knife position, an overdue one as moved, and FULL is planned N repeats on for a ROLL. A
synthesised mark arms nothing. -/
def Sys2Proof.Claims.ReportsOpenAndArm : Prop :=
  ∀ (n : Node) (here : Nat) (edge : Pos) (j : JobRecord) (p : Pattern), isRole n .rewind = true → isJoined n = true →
    n.job.current = some j → curPattern n = some p → 1 ≤ here → here ≤ repeatRange →
    let knife := movePos (movePos edge (cfg n).eyeToKnife) p.cutOffset
    (∀ x, n.roll.piece = none → n.roll.plan = [] → n.roll.nextRoll = some x → n.track.tracker = .track →
      n.link.resume = none → ∀ real : Bool,
      (rollReport n here edge real none).roll = { n.roll with
        piece := some { number := x, kind := .waste, first := here, opening := knife, job := j.number,
                        pattern := some j.pattern, full := 0, start := true },
        nextRoll := some (if x < 999999 then x + 1 else 1),
        plan := [{ cut := if here < repeatRange then here + 1 else 1, reasons := { start := true }, kind := .roll }] }) ∧
    (∀ (pc : OpenPiece) (e : PlanEntry), n.roll.piece = some pc → n.roll.plan = [e] → e.arming = none →
      repeatAtOrAfter here e.cut = true →
      rollReport n here edge false none = n ∧
      (passed n.travel.position knife = false → n.trig.entries.length < 8 → (∀ t ∈ n.trig.entries, t.tag ≠ 1) →
        0 < p.minRoll → p.minRoll ≤ 1000000 → 2500 ≤ p.nominal →
        let armed : PlanEntry := { e with cut := here, moved := e.moved || decide (e.cut ≠ here),
                                          arming := some { tag := 1, knife := knife, job := j.number, pattern := some p.code } }
        let k := (p.minRoll + p.nominal - 1) / p.nominal
        let t := rollReport n here edge true none
        t.trig.entries = insertTrigger { output := .cut, position := knife, tag := 1 } n.trig.entries ∧
        t.roll.cutsMoved = n.roll.cutsMoved + (if e.cut = here then 0 else 1) ∧
        t.roll.plan = (if e.kind = .roll then
            [{ armed with full := k }, { cut := addIn repeatRange here k, reasons := { full := true }, kind := .roll }]
          else [{ armed with full := 0 }])))

/-- The ROLL of a closed piece of the REWIND node completes (R169): the piece leaves those awaiting completion. Applied like every
ROLL (R170), with its own entry held as REWIND, no conflict and room in the list, a new roll joins the roll list, and its repeats leave the table. -/
def Sys2Proof.Claims.OwnRollsLeaveTheWait : Prop :=
  ∀ (s : State) (c : RollContent), Sends s (.roll c) .roll → isRole s.node .rewind = true →
    (After (.roll (ownOrigin s) c) s fun n =>
      n.roll.awaiting = (s.node.roll.awaiting.filter fun x => decide (x.number ≠ c.number)) ∧ n.link.sending = false ∧
      n.link.newestRoll = raiseNumber rollRange s.node.link.newestRoll c.number) ∧
    (heldAs s.node (cfg s.node).station .rewind = true → rollClashes s.node.roll.list c = false →
      inRollList s.node c.number = false → s.node.roll.list.length < 16 →
      After (.roll (ownOrigin s) c) s fun n =>
        n.roll.list = s.node.roll.list ++ [c] ∧
        n.track.table = s.node.track.table.filter fun r => !inRun repeatRange c.first c.count r.number)

/-- ROLL and LABELLED, the plan of the Roll Builder, and the own ROLL. -/
def Obligations.RollTelegramsKeepTheList : Prop :=
  Claims.RollEntersTheList ∧ Claims.LabelledRollsDepart ∧ Claims.PlansTakeCuts ∧ Claims.ReportsOpenAndArm ∧
    Claims.OwnRollsLeaveTheWait

/-- REQUEST NEW_JOB at the JOINED KEY, its window closed and no job in offer: a known pattern takes the next job number from
the next repeat on, and JOB TAKEN is offered; an unknown one is counted as refused and JOB REFUSED is offered. At any other
node the request changes no job. -/
def Sys2Proof.Claims.NewJobIsTakenOrRefused : Prop :=
  ∀ (o : Origin) (s : State) (arg : Nat), HearsAnother o s →
    (∀ j f : Nat, isRole s.node .key = true → isJoined s.node = true → s.node.link.resume = none →
      s.node.job.inOffer = none → s.node.job.nextJob = some j → s.node.track.nextRepeat = some f →
      s.node.link.queue.length < 15 → downQueued s.node = false →
      (∀ pat, findPattern (cfg s.node) arg = some pat → arg ≠ 0 →
        After (.requestNewJob o arg) s fun n => Heard o s n ∧
          n.job.inOffer = some ({ number := j, pattern := arg, first := f }, o.sender) ∧
          n.job.nextJob = some (if j < 65535 then j + 1 else 1) ∧ n.job.given = s.node.job.given ∧
          (∃ q ∈ n.link.queue,
            q.telegram = .jobTaken { number := j, pattern := arg, first := f, requester := o.sender })) ∧
      (findPattern (cfg s.node) arg = none →
        After (.requestNewJob o arg) s fun n => Heard o s n ∧
          n.port.refusals = s.node.port.refusals + 1 ∧ n.job = s.node.job ∧
          (∃ q ∈ n.link.queue, ∃ r, q.telegram = .jobRefused r ∧ r.pattern = arg ∧ r.requester = o.sender))) ∧
    (isRole s.node .key = false →
      After (.requestNewJob o arg) s fun n => Heard o s n ∧ n.job = s.node.job ∧ n.port.refusals = s.node.port.refusals)

/-- REQUEST CLOSE_BATCH at the JOINED SHADE node and CLOSE_ROLL at the JOINED REWIND node, their windows closed: the batch
opens again at the repeat after here; the cut is planned two repeats after here. Before the first opening, or with no open
piece, the request is counted as refused. -/
def Sys2Proof.Claims.CloseRequestsActAtTheirOwner : Prop :=
  ∀ (o : Origin) (s : State) (arg : Nat), HearsAnother o s → isJoined s.node = true → s.node.link.resume = none →
    (isRole s.node .shade = true → s.node.batch.lastDecided = none →
      After (.requestCloseBatch o arg) s fun n => Heard o s n ∧
        n.port.refusals = s.node.port.refusals + 1 ∧ n.batch = s.node.batch) ∧
    (∀ h l code : Nat, isRole s.node .shade = true → s.node.batch.lastDecided = some l → s.node.track.here = some h →
      s.node.batch.watch = none → s.node.batch.nextCode = some code → newer repeatRange (succIn repeatRange h) l = true →
      After (.requestCloseBatch o arg) s fun n => Heard o s n ∧
        n.batch.lastDecided = some (succIn repeatRange h) ∧ n.batch.lastOpened = some code ∧
        n.batch.inOffer = s.node.batch.inOffer + 1 ∧ n.port.refusals = s.node.port.refusals) ∧
    (isRole s.node .rewind = true → s.node.roll.piece = none →
      After (.requestCloseRoll o arg) s fun n => Heard o s n ∧
        n.port.refusals = s.node.port.refusals + 1 ∧ n.roll = s.node.roll) ∧
    (∀ (h : Nat) (pc : OpenPiece), isRole s.node .rewind = true → s.node.roll.piece = some pc →
      s.node.track.here = some h → s.node.roll.plan = [] → pc.kind = .roll →
      After (.requestCloseRoll o arg) s fun n => Heard o s n ∧
        n.roll = { s.node.roll with plan :=
          [{ cut := addIn repeatRange h 2, reasons := { operator := true }, kind := .roll }] })

/-- The own REQUEST completes while the slot is PENDING (R198): the slot is SENT with its kind and argument kept, and REQUEST
asserts ATTN. -/
def Sys2Proof.Claims.OwnRequestsAreSent : Prop :=
  ∀ (s : State) (kind : RequestKind) (arg : Nat), Sends s (.request kind arg) .request → s.node.port.slot = .pending →
    After (frameOf (ownOrigin s) (.request kind arg)) s fun n =>
      n.port.slot = .sent ∧ n.port.kind = s.node.port.kind ∧ n.port.arg = s.node.port.arg ∧
      n.port.attention &&& attRequest = attRequest ∧ n.link.sending = false

/-- REQUEST_NEW_JOB, REQUEST_CLOSE_BATCH and REQUEST_CLOSE_ROLL, and the end of the own REQUEST. -/
def Obligations.RequestsActAtTheirOwner : Prop :=
  Claims.NewJobIsTakenOrRefused ∧ Claims.CloseRequestsActAtTheirOwner ∧ Claims.OwnRequestsAreSent

/-! ### Peers, supply, resets and configuration -/

/-- PEER_SILENCE_W and PEER_SILENCE_2W at a JOINED or BENCHED node: a PRESENT entry of another station that has been silent
for W is QUIET, a PRESENT or QUIET one silent for 2W is LOST; no other entry changes. Before the limit nothing happens. -/
def Sys2Proof.Claims.SilenceMovesTheEntry : Prop :=
  ∀ (s : State) (k : Nat), appliesFrames s.node = true → wfStation k = true → k ≠ (cfg s.node).station →
    s.node.peers.length = 31 →
    let p := peerAt s.node k
    (p.state = .present → (cfg s.node).silence ≤ p.silence → After (.peerSilenceW k) s fun n =>
      peerAt n k = { p with state := .quiet } ∧ (∀ m, 1 ≤ m → m ≠ k → peerAt n m = peerAt s.node m) ∧
      n = { s.node with peers := n.peers }) ∧
    (p.state = .present ∨ p.state = .quiet → 2 * (cfg s.node).silence ≤ p.silence → After (.peerSilence2W k) s fun n =>
      peerAt n k = { p with state := .lost } ∧ (∀ m, 1 ≤ m → m ≠ k → peerAt n m = peerAt s.node m) ∧
      n = { s.node with peers := n.peers, hold := n.hold, link := n.link, port := n.port }) ∧
    (p.silence < (cfg s.node).silence → Gives (.peerSilenceW k) s s.node ∧ Gives (.peerSilence2W k) s s.node)

/-- A dependency that becomes LOST raises PEER_LOST at an eye node: a learnt KEY entry, for every eye role. -/
def Sys2Proof.Claims.LostKeyRaisesPeerLost : Prop :=
  ∀ (s : State) (k slot : Nat), appliesFrames s.node = true → wfStation k = true → k ≠ (cfg s.node).station →
    s.node.peers.length = 31 → eyeRole s.node = true → (peerAt s.node k).role = some (.key, slot) →
    (peerAt s.node k).learnt = true → (peerAt s.node k).state = .quiet →
    2 * (cfg s.node).silence ≤ (peerAt s.node k).silence →
    After (.peerSilence2W k) s fun n => peerLost n = true ∧ (factorInputs n).getLsbD 5 = true

/-- PEER_SILENCE_W and PEER_SILENCE_2W, and PEER_LOST. -/
def Obligations.SilencesMoveThePeers : Prop :=
  Claims.SilenceMovesTheEntry ∧ Claims.LostKeyRaisesPeerLost

/-- SUPPLY_WARNING: a JOINED node with room in its queue queues DOWN with cause SUPPLY directly behind the head, also a head
that is not on the line, the model's choice (log entry 39); a node that is LISTENING, JOINING, BENCHED, MUTED, LOADING or
UNCONFIGURED is DOWN at once, sends nothing and drives no void and no clash mark (Table 13). That its queue is kept is the model's
choice (log entry 8). -/
def Sys2Proof.Claims.SupplyWarningTakesTheNodeDown : Prop :=
  ∀ s : State, s.node.pins.supwarn = false → s.node.pins.resetLow = false →
    let down : QEntry := { telegram := .down .supply, restate := false, offerBy := .plain }
    (s.node.st = .joined → downQueued s.node = false → s.node.link.queue.length < 16 →
      Gives .supplyWarning s { s.node with
        pins := { s.node.pins with supwarn := true, supwarnQuiet := 0 },
        link := { s.node.link with queue := s.node.link.queue.take 1 ++ [down] ++ s.node.link.queue.drop 1 } }) ∧
    (s.node.st ≠ .joined → s.node.st ≠ .down →
      After .supplyWarning s fun n => n.st = .down ∧ n.link.sending = false ∧ n.pins.supwarn = true ∧
        n.port.attention &&& attNode = attNode ∧ n.link.queue = s.node.link.queue ∧ txBits n = [] ∧ dominantBits n = 0) ∧
    (s.node.st = .down →
      Gives .supplyWarning s { s.node with pins := { s.node.pins with supwarn := true, supwarnQuiet := 0 } })

/-- SUPWARN_INACTIVE starts the 100 ms of quiet, also when it is repeated, the model's choice (log entry 29); SUPPLY_RECOVERY
in DOWN after 100 ms of quiet is a reset with cause SUPPLY, and before them nothing. That the reset keeps pins, time base and
free values is the model's choice (log entries 4 and 5). -/
def Sys2Proof.Claims.SupplyRecoveryResetsTheNode : Prop :=
  ∀ s : State,
    Gives .supwarnInactive s { s.node with pins := { s.node.pins with supwarn := false, supwarnQuiet := 0 } } ∧
    (s.node.st = .down → s.node.pins.supwarn = false → s.node.pins.resetLow = false → 100 ≤ s.node.pins.supwarnQuiet →
      Gives .supplyRecovery s
        { st := .loading, resetCause := .supply, pins := s.node.pins, now := s.node.now, freeIndex := s.node.freeIndex }) ∧
    (s.node.pins.supwarnQuiet < 100 ∨ s.node.st ≠ .down → Gives .supplyRecovery s s.node)

/-- SUPPLY_WARNING, SUPWARN_INACTIVE and SUPPLY_RECOVERY. -/
def Obligations.SupplyWarningAndRecovery : Prop :=
  Claims.SupplyWarningTakesTheNodeDown ∧ Claims.SupplyRecoveryResetsTheNode

/-- What a reset of each cause and a rejoin leave in the Travel Unit, the Mark Reader and the Trigger Table (R7, R14, R18).
That a node with no image in force counts nothing is the model's choice (log entry 7). -/
def Obligations.ResetAndRejoinOfTheWebBlocks : Prop :=
  (∀ s : State, s.node.pins.supwarn = false →
    let isReset := fun (n : Node) =>
      n.travel.remainder = 0 ∧ n.travel.position = 0 ∧ n.travel.debt = 0 ∧ n.travel.speed = 0 ∧
      n.travel.motion = .standstill ∧ n.travel.standstill = none ∧ n.travel.lastBoundary = none ∧
      n.travel.lastSpeed = none ∧ n.travel.webReversed = false ∧ n.travel.speedStep = false ∧
      n.marks.mark = none ∧ n.marks.history = [] ∧ n.marks.indexes = [] ∧ n.marks.window = none ∧ n.marks.span = none ∧
      n.marks.reads = [] ∧ n.marks.observed = none ∧ n.marks.stray = 0 ∧ n.trig.entries = [] ∧ n.trig.cut = none ∧
      pinCUT n = false
    After .powerReset s isReset ∧ After (.pinReset true) s isReset ∧
    (s.node.pins.resetLow = true → isReset s.node → After (.pinReset false) s isReset) ∧
    (s.node.st = .down → s.node.pins.resetLow = false → 100 ≤ s.node.pins.supwarnQuiet → After .supplyRecovery s isReset)) ∧
  (∀ n : Node,
    (rejoinNode n).travel = { n.travel with lastBoundary := none, lastSpeed := none, speedStep := false } ∧
    (rejoinNode n).marks = { stray := n.marks.stray } ∧ (rejoinNode n).trig = { entries := [], cut := n.trig.cut } ∧
    (rejoinNode n).loop.lastError = none ∧ (rejoinNode n).job.tallyPart = false ∧
    (rejoinNode n).roll.piece = none ∧ (rejoinNode n).roll.plan = [] ∧ (rejoinNode n).nip = {}) ∧
  (∀ (s : State) (im : Image) (f : ConfigFault), s.node.st = .loading → s.node.pins.resetLow = false →
    imageFault im = some f →
    After (.configurationLoadEnd im) s fun n => n.st = .unconfigured ∧ n.travel = s.node.travel) ∧
  (∀ (s : State) (a b : Bool), s.node.image = none →
    Gives (.encoderCount a b) s { s.node with pins := { s.node.pins with encA := a, encB := b } })

/-- R41: what a reset of each cause and a rejoin leave in the Link Controller. -/
def Obligations.ResetAndRejoinOfTheLink : Prop :=
  (∀ s : State, s.node.pins.supwarn = false →
    let isReset := fun (n : Node) =>
      n.link.queue = [] ∧ n.link.sending = false ∧ n.link.attempts = 0 ∧ n.link.w = 31 ∧ n.link.voidRun = 0 ∧
      n.link.goodRun = 0 ∧ n.link.ownRun = 0 ∧ n.link.linkFault = false ∧ n.link.stuck = false ∧
      n.link.newestRepeat = none ∧ n.link.newestRoll = none ∧ n.link.newestBatch = none ∧ n.link.newestJob = none ∧
      n.link.sendElapsed = none ∧ n.link.resume = none ∧ n.link.restBatch = {} ∧ n.link.restHold = {} ∧
      n.link.restRoll = {} ∧ n.link.completed = 0 ∧ n.link.raised = 0 ∧ n.link.seenVoids = 0 ∧ n.link.dropped = 0 ∧
      n.link.discarded = 0 ∧ n.st = .loading
    After .powerReset s isReset ∧ After (.pinReset true) s isReset ∧
    (s.node.st = .down → s.node.pins.resetLow = false → 100 ≤ s.node.pins.supwarnQuiet → After .supplyRecovery s isReset)) ∧
  (∀ n : Node,
    (rejoinNode n).link.queue = [] ∧ (rejoinNode n).link.sending = false ∧ (rejoinNode n).link.attempts = 0 ∧
    (rejoinNode n).link.voidRun = 0 ∧ (rejoinNode n).link.goodRun = 0 ∧ (rejoinNode n).link.ownRun = 0 ∧
    (rejoinNode n).link.linkFault = false ∧ (rejoinNode n).link.stuck = false ∧
    (rejoinNode n).link.newestRepeat = none ∧ (rejoinNode n).link.newestRoll = none ∧
    (rejoinNode n).link.newestBatch = none ∧ (rejoinNode n).link.newestJob = none ∧
    (rejoinNode n).link.sendElapsed = none ∧ (rejoinNode n).link.resume = none ∧ (rejoinNode n).link.restBatch = {} ∧
    (rejoinNode n).link.restHold = {} ∧ (rejoinNode n).link.restRoll = {} ∧
    (rejoinNode n).link.completed = n.link.completed ∧ (rejoinNode n).link.raised = n.link.raised ∧
    (rejoinNode n).link.seenVoids = n.link.seenVoids ∧ (rejoinNode n).link.dropped = n.link.dropped ∧
    (rejoinNode n).link.discarded = n.link.discarded ∧ (rejoinNode n).link.w = n.link.w ∧ (rejoinNode n).st = .listening)

/-- POWER_RESET and PIN_RESET set every block to its reset value and record the cause; the input pins, the time base and
the free values go on (log entries 4 and 5). The rising RESETN ends the reset. A SUPWARN still active then takes the node
DOWN. -/
def Obligations.ResetsReturnEveryBlock : Prop :=
  ∀ s : State,
    (s.node.pins.resetLow = false → s.node.pins.supwarn = false →
      Gives .powerReset s
        { st := .loading, resetCause := .power, pins := s.node.pins, now := s.node.now, freeIndex := s.node.freeIndex }) ∧
    Gives (.pinReset true) s
      { st := .loading, resetCause := .pin, pins := { s.node.pins with resetLow := true }, now := s.node.now,
        freeIndex := s.node.freeIndex } ∧
    (s.node.pins.resetLow = true → s.node.pins.supwarn = false →
      Gives (.pinReset false) s { s.node with pins := { s.node.pins with resetLow := false } }) ∧
    (s.node.pins.resetLow = true → s.node.pins.supwarn = true → s.node.st = .loading →
      After (.pinReset false) s fun n => n.st = .down) ∧
    (s.node.pins.resetLow = false → Gives (.pinReset false) s s.node)

/-- CONFIGURATION_LOAD_END in LOADING: a good image is the image in force, the node is LISTENING with 20 ms to listen, and
FAULT stays low, with the signature the CRC over the bytes of pattern table and register tolerance; an image of a bad length,
checksum or field range leaves the node UNCONFIGURED with the fault recorded and FAULT high. In any other state nothing
happens. That the image comes as its bytes, its fields and the signature's bytes side by side is the model's choice (log entry
6), and so is the image that stays as it was at a bad one (log entry 7). -/
def Sys2Proof.Claims.LoadsConfigureTheNode : Prop :=
  ∀ (im : Image) (s : State),
    (s.node.st = .loading → s.node.pins.resetLow = false →
      (imageFault im = none → After (.configurationLoadEnd im) s fun n =>
        n.st = .listening ∧ n.image = some im.fields ∧ n.signature = (crc16 (bytesBits im.signatureBytes)).toNat ∧
        n.link.listen = some 20 ∧ n.link.heardEnd = false ∧ pinFAULT n = false ∧ n.port.attention &&& attNode = attNode) ∧
      (∀ f, imageFault im = some f → After (.configurationLoadEnd im) s fun n =>
        n.st = .unconfigured ∧ n.configFault = some f ∧ n.image = s.node.image ∧ pinFAULT n = true ∧
        n.port.attention &&& attNode = attNode) ∧
      (imageLength im < 16 ∨ 4096 < imageLength im → imageFault im = some .noImage) ∧
      (16 ≤ imageLength im → imageLength im ≤ 4096 → checksumGood im = false → imageFault im = some .checksum)) ∧
    (s.node.st ≠ .loading → Gives (.configurationLoadEnd im) s s.node)

/-- An image of good length and checksum is bad with fault RANGE exactly when its fields fail their checks; these do: a station,
colour slot or silence limit outside Table 56, more than 12 patterns, two of one code or one outside Table 24, a field of the
role outside its table, and a role code that the table lacks. -/
def Sys2Proof.Claims.FieldsOutsideTheirRangesAreFaults : Prop :=
  ∀ im : Image,
    let c := im.fields
    (16 ≤ imageLength im → imageLength im ≤ 4096 → checksumGood im = true →
      imageFault im = if fieldsGood im then none else some .range) ∧
    (c.station = 0 ∨ 31 < c.station ∨ c.silence < 100 ∨ 2000 < c.silence → fieldsGood im = false) ∧
    ((c.role = .print ∧ (c.colourSlot = 0 ∨ 7 < c.colourSlot)) ∨ (c.role = .emboss ∧ c.colourSlot ≠ 8) ∨
      (c.role ≠ .print ∧ c.role ≠ .emboss ∧ c.colourSlot ≠ 0) → fieldsGood im = false) ∧
    (12 < c.patterns.length ∨ ¬(c.patterns.map (·.code)).Nodup → fieldsGood im = false) ∧
    (∀ p ∈ c.patterns, p.code = 0 ∨ 255 < p.code ∨ p.nominal < 2500 ∨ 16000 < p.nominal ∨ p.windowMin < 1250 ∨
      p.nominal < p.windowMin ∨ p.windowMax < p.nominal ∨ 65535 < p.windowMax ∨ p.colourCount = 0 ∨ 8 < p.colourCount ∨
      p.cutOffset < -8000 ∨ 8000 < p.cutOffset ∨ p.minRoll < 10000 ∨ 1000000 < p.minRoll → fieldsGood im = false) ∧
    (c.role = .print ∨ c.role = .emboss → c.unlockWindow < c.lockWindow ∨ 7 < c.captureCode ∨ c.captureGain = 0 ∨
      16 < c.captureGain ∨ 3 < c.lockReduction ∨ c.maxCorrection = 0 ∨ 2000 < c.maxCorrection → fieldsGood im = false) ∧
    (c.role = .emboss → c.actuationTime < 20 ∨ 2000 < c.actuationTime → fieldsGood im = false) ∧
    (c.role = .shade → c.calibrationInterval < 100 ∨ 10000 < c.calibrationInterval ∨ c.driftK = 0 ∨ 32 < c.driftK →
      fieldsGood im = false) ∧
    (c.role = .rewind → 4 < c.wasteBefore ∨ 4 < c.wasteAfter ∨ c.shortMin = 0 ∨ 10 < c.shortMin → fieldsGood im = false) ∧
    (c.role ≠ .label → c.quietQ = 0 ∨ 255 < c.quietQ → fieldsGood im = false) ∧
    (c.role = .label → c.conveyorLimit < 10 ∨ 600 < c.conveyorLimit → fieldsGood im = false) ∧
    (CodedField.role ∈ im.undefinedCodes → fieldsGood im = false)

/-- CONFIGURATION_LOAD_END, and the checks of an image. -/
def Obligations.ConfigurationLoadEndConfigures : Prop :=
  Claims.LoadsConfigureTheNode ∧ Claims.FieldsOutsideTheirRangesAreFaults

/-! ### Labelling -/

/-- ARRIVE_EDGE at the LABEL node: an edge to the level the sensor does not show starts the debounce timer at 50 ms, an edge
back stops it. SENSOR_CLEAR: the timer is over with ARRIVE low, and the sensor is CLEAR. -/
def Sys2Proof.Claims.ArrivalsAreDebounced : Prop :=
  ∀ (s : State) (high : Bool),
    (isRole s.node .label = true → s.node.pins.arriveHigh ≠ high →
      Gives (.arriveEdge high) s { s.node with
        pins := { s.node.pins with arriveHigh := high },
        label := { s.node.label with debounce := if high = s.node.label.present then none else some 50 } }) ∧
    (s.node.label.debounce = some 0 → s.node.pins.arriveHigh = false → s.node.label.present = true →
      Gives .sensorClear s { s.node with label := { s.node.label with debounce := none, present := false } })

/-- ARRIVAL (Table 51): with no WAITING roll the gate is HOLD_LANE, the arrival is counted as diverted and UNKNOWN_ROLL for
roll 0 joins the outcomes; with the printer in FAULT, or two labels queued, the roll goes to the hold lane, NOT_LABELLED; a
WASTE roll is diverted to the waste lane; a FIRST or SHORT roll of a known pattern while the printer is IDLE takes the gate
PASS, one graded HOLD or of no known pattern the hold lane, and it becomes LABELLING and its block starts on LBLD. While the
printer is PRINTING with fewer than two labels queued the same two rows hold, the label joins the end of the queue, and the print
goes on. Outside
JOINED the roll goes to the hold lane, counted as diverted. The serial of an outcome is the model's own (log entry 48). -/
def Sys2Proof.Claims.ArrivalsSetTheGate : Prop :=
  ∀ s : State, isRole s.node .label = true → s.node.label.debounce = some 0 → s.node.pins.arriveHigh = true →
    s.node.label.present = false →
    (isJoined s.node = false → Gives .arrival s { s.node with label := { s.node.label with
      debounce := none, present := true, gate := .holdLane, diverted := s.node.label.diverted + 1 } }) ∧
    (isJoined s.node = true → oldestWaiting s.node = none → s.node.label.outcomes.length < 32 →
      s.node.link.queue.length < 16 → After .arrival s fun n =>
      n.label.gate = .holdLane ∧ n.label.diverted = s.node.label.diverted + 1 ∧ n.label.present = true ∧
      n.label.outcomes = s.node.label.outcomes ++
        [{ number := 0, outcome := .unknownRoll, serial := s.node.label.nextSerial }]) ∧
    (∀ c, isJoined s.node = true → oldestWaiting s.node = some c → c.number ≠ 0 → s.node.label.outcomes.length < 32 →
      s.node.label.printer = .fault ∨ (c.grade ≠ .waste ∧ 2 ≤ s.node.label.queue.length) →
      After .arrival s fun n =>
        n.label.gate = .holdLane ∧ n.label.diverted = s.node.label.diverted + 1 ∧ n.label.queue = s.node.label.queue ∧
        dispositionOf n c.number = some (.decided .notLabelled) ∧
        n.label.outcomes = s.node.label.outcomes ++
          [{ number := c.number, outcome := .notLabelled, serial := s.node.label.nextSerial }]) ∧
    (∀ c, isJoined s.node = true → oldestWaiting s.node = some c →
      (c.grade = .hold ∨ ((c.grade = .first ∨ c.grade = .short) ∧ rollPattern s.node c.job = none)) →
      s.node.label.printer = .idle → s.node.label.queue = [] →
      After .arrival s fun n =>
        n.label.gate = .holdLane ∧ n.label.diverted = s.node.label.diverted + 1 ∧
        dispositionOf n c.number = some .labelling ∧ n.label.printer = .printing ∧ n.label.printTimer = some 5000 ∧
        n.label.queue = [{ number := c.number, block := labelBlock s.node c true, gate := .holdLane }] ∧
        n.label.sending = some (labelBlock s.node c true ++ [13], 0)) ∧
    (∀ c, isJoined s.node = true → oldestWaiting s.node = some c → c.grade = .waste → c.number ≠ 0 →
      s.node.label.printer ≠ .fault →
      s.node.label.outcomes.length < 32 → After .arrival s fun n =>
      n.label.gate = .wasteLane ∧ n.label.diverted = s.node.label.diverted + 1 ∧
      dispositionOf n c.number = some (.decided .divertedWaste) ∧
      n.label.outcomes = s.node.label.outcomes ++
        [{ number := c.number, outcome := .divertedWaste, serial := s.node.label.nextSerial }]) ∧
    (∀ c pat, isJoined s.node = true → oldestWaiting s.node = some c → (c.grade = .first ∨ c.grade = .short) →
      rollPattern s.node c.job = some pat → s.node.label.printer = .idle → s.node.label.queue = [] →
      After .arrival s fun n =>
        n.label.gate = .pass ∧ n.label.diverted = s.node.label.diverted ∧ dispositionOf n c.number = some .labelling ∧
        n.label.printer = .printing ∧ n.label.printTimer = some 5000 ∧
        n.label.queue = [{ number := c.number, block := labelBlock s.node c false, gate := .pass }] ∧
        n.label.sending = some (labelBlock s.node c false ++ [13], 0)) ∧
    (∀ (c : RollContent) (held : Bool), isJoined s.node = true → oldestWaiting s.node = some c →
      ((held = true ∧ (c.grade = .hold ∨ ((c.grade = .first ∨ c.grade = .short) ∧ rollPattern s.node c.job = none))) ∨
        (held = false ∧ (c.grade = .first ∨ c.grade = .short) ∧ (rollPattern s.node c.job).isSome = true)) →
      s.node.label.printer = .printing → s.node.label.queue.length < 2 →
      After .arrival s fun n =>
        let g : Gate := if held then .holdLane else .pass
        n.label.gate = g ∧ n.label.diverted = s.node.label.diverted + (if held then 1 else 0) ∧
        dispositionOf n c.number = some .labelling ∧
        n.label.queue = s.node.label.queue ++ [{ number := c.number, block := labelBlock s.node c held, gate := g }] ∧
        n.label.printer = .printing ∧ n.label.printTimer = s.node.label.printTimer ∧
        n.label.sending = s.node.label.sending ∧ n.label.outcomes = s.node.label.outcomes)

/-- The label block (Table 53) is 29 characters: the digits of roll, batch, pattern code, job, length in centimetres and repeat
count, each held at the largest value of its width, then the grade letter (A, S or H), the match letter (S, H or F; F when the
pattern is not known) and the check digit over roll, batch and pattern code. With its carriage return it is 300 bits on LBLD,
ten to each character (R183); that the start bit is low and the stop bit high is the model's choice (log entry 21). -/
def Sys2Proof.Claims.LabelBlocksHave29Characters : Prop :=
  ∀ (n : Node) (c : RollContent) (held : Bool),
    (labelBlock n c held).length = 29 ∧
    (labelBlock n c held)[26]? = some (gradeLetter c.grade held) ∧
    (labelBlock n c held)[28]? = some (digitChar
      (checkDigit (fieldDigits 6 c.number) (fieldDigits 4 c.batch) (fieldDigits 3 ((historyPattern n c.job).getD 0)))) ∧
    (c.number ≤ 999999 → (labelBlock n c held).take 6 = (digitsOf 6 c.number).map digitChar) ∧
    (labelBlock n c held)[27]? = some (match rollPattern n c.job with
      | some p => (match p.matchType with | .straight => (83 : Byte) | .halfDrop => 72 | .free => 70)
      | none => 70) ∧
    (∀ g, gradeLetter g held = (if held then 72 else match g with | .first => 65 | .short => 83 | _ => 72)) ∧
    (∀ a b d : List Nat, checkDigit a b d = (a.sum + b.sum + d.sum) % 10) ∧
    ((labelBlock n c held).drop 6).take 4 = (digitsOf 4 (min c.batch 9999)).map digitChar ∧
    ((labelBlock n c held).drop 10).take 3 = (digitsOf 3 (min ((historyPattern n c.job).getD 0) 999)).map digitChar ∧
    ((labelBlock n c held).drop 13).take 5 = (digitsOf 5 (min c.job 99999)).map digitChar ∧
    ((labelBlock n c held).drop 18).take 5 = (digitsOf 5 (min ((c.length + 50) / 100) 99999)).map digitChar ∧
    ((labelBlock n c held).drop 23).take 3 = (digitsOf 3 (min c.count 999)).map digitChar ∧
    (serialBits (labelBlock n c held ++ [13])).length = 300 ∧
    ∀ b : Byte, (serialFrame b).length = 10 ∧ (serialFrame b).head? = some false ∧ (serialFrame b).getLast? = some true

/-- ARRIVE_EDGE, SENSOR_CLEAR and ARRIVAL, and the label block an arrival makes. -/
def Obligations.ArrivalsAndTheirBlocks : Prop :=
  Claims.ArrivalsAreDebounced ∧ Claims.ArrivalsSetTheGate ∧ Claims.LabelBlocksHave29Characters

/-- READY_FALL during a print marks READY seen low; the READY_RISE behind it ends the print: the APPLY pulse of 100 ms
starts, the head label leaves and is counted, and its roll is decided by its gate. Outside a print READY only moves the pin,
or starts the 1 s of a printer in FAULT. -/
def Sys2Proof.Claims.ReadyEndsThePrint : Prop :=
  ∀ s : State,
    (s.node.pins.readyHigh = true → After .readyFall s fun n =>
      n.label.readyTimer = none ∧ n.label.seenLow = (s.node.label.seenLow || decide (s.node.label.printer = .printing)) ∧
      n = { s.node with pins := { s.node.pins with readyHigh := false }, label := n.label }) ∧
    (s.node.pins.readyHigh = false →
      (s.node.label.printer = .idle → Gives .readyRise s { s.node with pins := { s.node.pins with readyHigh := true } }) ∧
      (s.node.label.printer = .fault → Gives .readyRise s { s.node with
        pins := { s.node.pins with readyHigh := true }, label := { s.node.label with readyTimer := some 1000 } }) ∧
      (∀ l rest, s.node.label.printer = .printing → s.node.label.seenLow = true → s.node.label.applyTimer = none →
        s.node.label.abandoned = false → s.node.label.queue = l :: rest → l.number ≠ 0 →
        s.node.label.outcomes.length < 32 →
        After .readyRise s fun n =>
          let out : LabelOutcome := if l.gate = .pass then .labelled else .divertedHold
          n.label.applyTimer = some 100 ∧ pinAPPLY n = true ∧ n.label.printTimer = none ∧ n.label.queue = rest ∧
          n.label.printed = s.node.label.printed + 1 ∧ dispositionOf n l.number = some (.decided out) ∧
          n.label.outcomes = s.node.label.outcomes ++
            [{ number := l.number, outcome := out, serial := s.node.label.nextSerial }]))

/-- APPLY_PULSE_END and READY_TIMER leave the printer IDLE, and the block of the head label starts at once when one is
queued. PRINT_TIMER: the print has failed: FAULT, the queue is empty, and the labels in it take NOT_LABELLED; READY high
starts the 1 s. -/
def Sys2Proof.Claims.PrinterTimersMoveThePrinter : Prop :=
  ∀ s : State,
    (s.node.label.applyTimer = some 0 → s.node.label.queue = [] →
      Gives .applyPulseEnd s { s.node with label := { s.node.label with applyTimer := none, printer := .idle } }) ∧
    (∀ l rest, s.node.label.applyTimer = some 0 → s.node.label.queue = l :: rest →
      Gives .applyPulseEnd s { s.node with label := { s.node.label with
        applyTimer := none, printer := .printing, seenLow := false, abandoned := false, printTimer := some 5000,
        sending := some (l.block ++ [13], 0) } }) ∧
    (s.node.label.readyTimer = some 0 → s.node.label.queue = [] →
      Gives .readyTimer s { s.node with label := { s.node.label with readyTimer := none, printer := .idle } }) ∧
    (s.node.label.printTimer = some 0 → After .printTimer s fun n =>
      n.label.printer = .fault ∧ n.label.queue = [] ∧ n.label.printTimer = none ∧
      n.label.readyTimer = (if s.node.pins.readyHigh then some 1000 else none) ∧
      n.label.printed = s.node.label.printed ∧
      ∀ l ∈ s.node.label.queue, dispositionOf n l.number = some (.decided .notLabelled))

/-- ROLL_DEADLINE: a WAITING roll whose deadline has passed is MISSING, and its outcome joins those in offer; before the
deadline, or with no disposition, LABELLING or DECIDED, nothing happens. -/
def Sys2Proof.Claims.DeadlinesMakeRollsMissing : Prop :=
  ∀ (s : State) (x : Nat),
    (∀ d, dispositionOf s.node x = some (.waiting d) → d ≤ s.node.now → x ≠ 0 → s.node.label.outcomes.length < 32 →
      After (.rollDeadline x) s fun n =>
        dispositionOf n x = some (.decided .missing) ∧
        n.label.outcomes = s.node.label.outcomes ++
          [{ number := x, outcome := .missing, serial := s.node.label.nextSerial }] ∧
        n.roll.list = s.node.roll.list) ∧
    (∀ d, dispositionOf s.node x = some (.waiting d) → s.node.now < d → Gives (.rollDeadline x) s s.node) ∧
    (dispositionOf s.node x = none ∨ dispositionOf s.node x = some .labelling ∨
        (∃ out, dispositionOf s.node x = some (.decided out)) → Gives (.rollDeadline x) s s.node)

/-- The own LABELLED of the JOINED LABEL node completes: its outcome, told from equal ones by its serial (log entry 48), leaves
the outcomes in offer, and no other does. -/
def Sys2Proof.Claims.CompletedOutcomesLeave : Prop :=
  ∀ (s : State) (e : QEntry) (rest : List QEntry) (x serial : Nat) (out : LabelOutcome), s.node.st = .joined →
    isRole s.node .label = true → s.node.link.sending = true → s.node.link.queue = e :: rest →
    e = { telegram := .labelled x out, restate := false, offerBy := .labelled serial } → s.node.link.refusedOffers = [] →
    After (.labelled { sender := (cfg s.node).station, restate := false } x out) s fun n =>
      n.link.queue = rest ∧ n.label.outcomes = s.node.label.outcomes.filter fun o => decide (o.serial ≠ serial)

/-- READY_FALL, READY_RISE, APPLY_PULSE_END, READY_TIMER, PRINT_TIMER, ROLL_DEADLINE and the end of an outcome's offer. -/
def Obligations.PrintsAndDeadlinesDecideRolls : Prop :=
  Claims.ReadyEndsThePrint ∧ Claims.PrinterTimersMoveThePrinter ∧ Claims.DeadlinesMakeRollsMissing ∧
    Claims.CompletedOutcomesLeave

/-! ### The station port -/

namespace Sys2Proof.Claims

/-- The answer shifted out has this status, the length of the content, and each stated byte of the content. -/
def Answers (n : Node) (status : Nat) (content : List ViewByte) : Prop :=
  n.port.out.length = content.length + 3 ∧ n.port.out.take 3 = byte status :: be2 content.length ∧
    ∀ i b, content[i]? = some (some b) → n.port.out[i + 3]? = some b

/-- A read changes the answer and takes free values for unstated bytes, and nothing else but what `p` names. -/
def OnlyTheAnswer (s : State) (n : Node) : Prop :=
  n = { s.node with port := { s.node.port with out := n.port.out }, freeIndex := n.freeIndex }

end Sys2Proof.Claims

/-- READ_NODE answers OK with the 46 bytes of the NODE view in every state, and empties the attention causes: ATTN is low. -/
def Obligations.NodeReadEmptiesAttention : Prop :=
  ∀ s : State, After .readNode s fun n =>
    Answers n 0 (viewNode s.node) ∧ (viewNode s.node).length = 46 ∧ n.port.attention = 0 ∧ pinATTN n = false ∧
    n = { s.node with port := { s.node.port with out := n.port.out, attention := 0 }, freeIndex := n.freeIndex }

/-- The other views: OK with the view's bytes where the node is ready, NOT_READY with none in LOADING, UNCONFIGURED and DOWN.
A TRACK read of a record that is not present answers NOT_PRESENT with the tracker part. Attention stays as it stands. -/
def Sys2Proof.Claims.ViewReadsAnswerTheSnapshot : Prop :=
  ∀ s : State,
    (notReady s.node = false →
      (After .readPeers s fun n => Answers n 0 (viewPeers s.node) ∧ OnlyTheAnswer s n) ∧
      (After .readRolls s fun n => Answers n 0 (viewRolls s.node) ∧ OnlyTheAnswer s n) ∧
      (After .readBatches s fun n => Answers n 0 (viewBatches s.node) ∧ OnlyTheAnswer s n) ∧
      (After .readHolds s fun n => Answers n 0 (viewHolds s.node) ∧ OnlyTheAnswer s n) ∧
      (After .readJob s fun n => Answers n 0 (viewJob s.node) ∧ OnlyTheAnswer s n) ∧
      (After .readCounters s fun n => Answers n 0 (viewCounters s.node) ∧ (viewCounters s.node).length = 64 ∧
        OnlyTheAnswer s n) ∧
      (∀ x r, findRecord s.node x = some r → After (.readTrack x) s fun n =>
        Answers n 0 (trackerBytes s.node ++ recordBytes r) ∧ OnlyTheAnswer s n) ∧
      (∀ x, findRecord s.node x = none → After (.readTrack x) s fun n =>
        Answers n 5 (trackerBytes s.node) ∧ OnlyTheAnswer s n)) ∧
    (notReady s.node = true →
      (∀ c ∈ [Instr.readPeers, .readRolls, .readBatches, .readHolds, .readJob, .readCounters],
        After c s fun n => Answers n 4 [] ∧ OnlyTheAnswer s n) ∧
      ∀ x, After (.readTrack x) s fun n => Answers n 4 [] ∧ OnlyTheAnswer s n)

/-- A command byte outside Table 58 answers UNKNOWN_COMMAND; a placement of a request kind outside Table 16 answers INVALID,
or NOT_READY in LOADING, UNCONFIGURED and DOWN; neither changes the request slot. -/
def Sys2Proof.Claims.UnknownCommandsAreAnswered : Prop :=
  ∀ s : State,
    (∀ code, (Instr.unknownCommand code).wf = true →
      After (.unknownCommand code) s fun n => Answers n 6 [] ∧ OnlyTheAnswer s n) ∧
    (∀ kind arg, (Instr.placeInvalidRequestKind kind arg).wf = true →
      After (.placeInvalidRequestKind kind arg) s fun n =>
        Answers n (if notReady s.node then 4 else 3) [] ∧ OnlyTheAnswer s n)

/-- The bytes of a transaction (R196 to R198, Table 58): the command that a command byte and its arguments spell, taken once
its last argument is in; the answer's bytes, 0 behind the content; and the bits of a byte, the most significant first. -/
def Sys2Proof.Claims.TransactionsSpellCommands : Prop :=
  (∀ more : List Byte,
    hostCommand (1 :: more) = some .readNode ∧ hostCommand (2 :: more) = some .readPeers ∧
    hostCommand (4 :: more) = some .readRolls ∧ hostCommand (5 :: more) = some .readBatches ∧
    hostCommand (6 :: more) = some .readHolds ∧ hostCommand (7 :: more) = some .readJob ∧
    hostCommand (8 :: more) = some .readCounters ∧
    (∀ a b d : Byte, hostCommand (3 :: a :: b :: d :: more) =
      some (.readTrack (65536 * a.toNat + 256 * b.toNat + d.toNat)) ∧ hostCommand [3, a, b] = none) ∧
    (∀ a : Byte, hostCommand (16 :: 0 :: a :: more) = some (.placeNewJob a.toNat) ∧
      hostCommand (16 :: 1 :: a :: more) = some (.placeCloseBatch a.toNat) ∧
      hostCommand (16 :: 2 :: a :: more) = some (.placeCloseRoll a.toNat) ∧
      hostCommand (16 :: 3 :: a :: more) = some (.placeHoldOn a.toNat) ∧
      hostCommand (16 :: 4 :: a :: more) = some (.placeClearHold a.toNat) ∧ hostCommand [16, a] = none) ∧
    (∀ k a : Byte, 5 ≤ k.toNat → hostCommand (16 :: k :: a :: more) = some (.placeInvalidRequestKind k.toNat a.toNat)) ∧
    ∀ k : Byte, k ∉ ([1, 2, 3, 4, 5, 6, 7, 8, 16] : List Byte) → hostCommand (k :: more) = some (.unknownCommand k.toNat)) ∧
  (∀ (n : Node) (i : Nat), (∀ b, n.port.out[i]? = some b → clockedByte n i = b) ∧
    (n.port.out.length ≤ i → clockedByte n i = 0) ∧
    clockedBits n i 1 = (List.range 8).map fun k => (clockedByte n i).getLsbD (7 - k)) ∧
  (∀ b : Byte, hostBits ((List.range 8).map fun k => b.getLsbD (7 - k)) = hostCommand [b])

/-- The seven views other than NODE, UNKNOWN_COMMAND and PLACE_INVALID_REQUEST_KIND, and the bytes of a transaction. -/
def Obligations.ReadsAndUnknownCommands : Prop :=
  Claims.ViewReadsAnswerTheSnapshot ∧ Claims.UnknownCommandsAreAnswered ∧ Claims.TransactionsSpellCommands

namespace Sys2Proof.Claims

/-- The placement command of a request kind. -/
def placement (kind : RequestKind) (arg : Nat) : Instr :=
  match kind with
  | .newJob => .placeNewJob arg
  | .closeBatch => .placeCloseBatch arg
  | .closeRoll => .placeCloseRoll arg
  | .holdOn => .placeHoldOn arg
  | .clearHold => .placeClearHold arg

end Sys2Proof.Claims

/-- A placement of each kind: NOT_READY, INVALID for a station outside 1 to 31, BUSY while the slot is PENDING, each with the
slot unchanged; else ACCEPTED: the slot takes kind and argument, and in a JOINED node with room REQUEST is queued and the slot
is PENDING; in a state that sends no REQUEST the slot ends REFUSED at once and REQUEST asserts ATTN. -/
def Obligations.PlacementsFillTheRequestSlot : Prop :=
  ∀ (s : State) (kind : RequestKind) (arg : Nat),
    (notReady s.node = true → After (placement kind arg) s fun n => Answers n 4 [] ∧ OnlyTheAnswer s n) ∧
    (notReady s.node = false →
      ((kind = .holdOn ∨ kind = .clearHold) → (arg = 0 ∨ 31 < arg) →
        After (placement kind arg) s fun n => Answers n 3 [] ∧ OnlyTheAnswer s n) ∧
      (((kind = .holdOn ∨ kind = .clearHold) → 1 ≤ arg ∧ arg ≤ 31) →
        (s.node.port.slot = .pending →
          After (placement kind arg) s fun n => Answers n 2 [] ∧ OnlyTheAnswer s n) ∧
        (s.node.port.slot ≠ .pending → isJoined s.node = true → downQueued s.node = false →
          s.node.link.queue.length < 16 → After (placement kind arg) s fun n =>
            Answers n 1 [] ∧ n.port.slot = .pending ∧ n.port.kind = some kind ∧ n.port.arg = some arg ∧
            n.port.answer = .none ∧
            (∃ q ∈ n.link.queue, q.telegram = .request kind arg ∧ q.offerBy = .request)) ∧
        (s.node.port.slot ≠ .pending → s.node.st = .listening ∨ s.node.st = .joining ∨ s.node.st = .muted ∨ s.node.st = .benched →
          After (placement kind arg) s fun n =>
            Answers n 1 [] ∧ n.port.slot = .refused ∧ n.port.kind = some kind ∧ n.port.arg = some arg ∧
            n.link.queue = s.node.link.queue ∧ n.port.attention &&& attRequest = attRequest)))

/-! ### What every step keeps -/

/-- The bounds hold right after reset. -/
def Obligations.ResetMeetsTheBounds : Prop :=
  queueBounded State.reset.node ∧ travelBounded State.reset.node ∧ peersComplete State.reset.node ∧
    tableBounded State.reset.node ∧ triggersBounded State.reset.node ∧ noMarkInDebt State.reset.node ∧
    storesBounded State.reset.node ∧ State.reset.pending = []

/-- R31: no step makes the transmit queue longer than 16 telegrams. -/
def Obligations.StepsKeepTheQueueBounded : Prop :=
  ∀ s t : State, queueBounded s.node → step s = .next t → queueBounded t.node

/-- No step takes the reverse debt or the speed out of its range, and none leaves a mark in progress while debt stands. -/
def Obligations.StepsKeepTheTravelBounded : Prop :=
  ∀ s t : State, travelBounded s.node ∧ noMarkInDebt s.node → step s = .next t → travelBounded t.node ∧ noMarkInDebt t.node

/-- No step changes the number of the Peer Table's entries. -/
def Sys2Proof.Claims.StepsKeepThePeerTable : Prop :=
  ∀ s t : State, peersComplete s.node → step s = .next t → peersComplete t.node

/-- No step makes the repeat table longer than 512 records, the Trigger Table longer than 8 entries, the splice queue longer
than 4 arrivals or the roll list longer than 16 entries. -/
def Sys2Proof.Claims.StepsKeepTheTablesBounded : Prop :=
  ∀ s t : State, tableBounded s.node ∧ triggersBounded s.node ∧ storesBounded s.node → step s = .next t →
    tableBounded t.node ∧ triggersBounded t.node ∧ storesBounded t.node

/-- No step takes the Peer Table, the repeat table, the Trigger Table, the splice queue or the roll list out of its size. -/
def Obligations.StepsKeepTablesAndPeers : Prop :=
  Claims.StepsKeepThePeerTable ∧ Claims.StepsKeepTheTablesBounded
end

