-- ==== Sys2Proof/Laws/State.lean ====
section
/-! SUPPORT. What each small named update leaves in the fields of the state: one lemma for each field it writes or keeps,
true by `rfl`, so that no proof opens a record update. -/

namespace Sys2Proof.Laws

open Sys2Proof.Machine

/-! ### The queue of commands -/

@[simp] theorem runNode_eq (f : Node → Node) (s : State) : runNode f s = .next { s with node := f s.node } := rfl

theorem step_of_cons (c : Instr) (rest : List Instr) (n : Node) :
    step { node := n, pending := c :: rest } = exec c { node := n, pending := rest } := rfl

theorem step_of_nil (n : Node) : step { node := n, pending := [] } = .next { node := tick n, pending := [] } := rfl

theorem withFetchWord_eq (s : State) (nbits w : Nat) : s.withFetchWord nbits w = s := rfl

/-! ### Free values and attention -/

@[simp] theorem useFree_freeIndex (n : Node) (k : Nat) : (useFree n k).freeIndex = n.freeIndex + k := rfl
theorem useFree_eq (n : Node) (k : Nat) : useFree n k = { n with freeIndex := n.freeIndex + k } := rfl

@[simp] theorem attend_attention (n : Node) (c : BitVec 4) : (attend n c).port.attention = n.port.attention ||| c := rfl
@[simp] theorem attend_slot (n : Node) (c : BitVec 4) : (attend n c).port.slot = n.port.slot := rfl
@[simp] theorem attend_kind (n : Node) (c : BitVec 4) : (attend n c).port.kind = n.port.kind := rfl
@[simp] theorem attend_arg (n : Node) (c : BitVec 4) : (attend n c).port.arg = n.port.arg := rfl
@[simp] theorem attend_answer (n : Node) (c : BitVec 4) : (attend n c).port.answer = n.port.answer := rfl
@[simp] theorem attend_refusals (n : Node) (c : BitVec 4) : (attend n c).port.refusals = n.port.refusals := rfl
@[simp] theorem attend_out (n : Node) (c : BitVec 4) : (attend n c).port.out = n.port.out := rfl
theorem attend_eq (n : Node) (c : BitVec 4) :
    attend n c = { n with port := { n.port with attention := n.port.attention ||| c } } := rfl

@[simp] theorem setState_st (n : Node) (st : NodeState) : (setState n st).st = st := by
  unfold setState
  split
  · assumption
  · rfl

theorem setState_eq (n : Node) (st : NodeState) : setState n st = { n with st := st, port := (setState n st).port } := by
  unfold setState
  split
  · next h => rw [← h]
  · rfl

/-! ### Refusals and LINK_FAULT -/

@[simp] theorem countRefusal_refusals (n : Node) : (countRefusal n).port.refusals = n.port.refusals + 1 := rfl
@[simp] theorem raiseLinkFault_linkFault (n : Node) : (raiseLinkFault n).link.linkFault = true := rfl
@[simp] theorem raiseLinkFault_ownRun (n : Node) : (raiseLinkFault n).link.ownRun = 0 := rfl
@[simp] theorem raiseLinkFault_queue (n : Node) : (raiseLinkFault n).link.queue = n.link.queue := rfl
@[simp] theorem refuseLater_queue (n : Node) (r : Reoffer) : (refuseLater n r).link.queue = n.link.queue := rfl
@[simp] theorem refuseLater_refusedOffers (n : Node) (r : Reoffer) :
    (refuseLater n r).link.refusedOffers = n.link.refusedOffers ++ [r] := rfl

/-! ### Peers -/

theorem setPeer_eq (n : Node) (k : Nat) (p : Peer) : setPeer n k p = { n with peers := (setPeer n k p).peers } := by
  unfold setPeer
  split <;> rfl

@[simp] theorem setPeer_length (n : Node) (k : Nat) (p : Peer) : (setPeer n k p).peers.length = n.peers.length := by
  unfold setPeer
  split
  · exact List.length_set
  · rfl

theorem peerAt_setPeer_same (n : Node) (k : Nat) (p : Peer) (h1 : 1 ≤ k) (h2 : k ≤ n.peers.length) :
    peerAt (setPeer n k p) k = p := by
  have h : k - 1 < n.peers.length := by omega
  simp [peerAt, setPeer, h1, List.getD, h]

theorem peerAt_setPeer_other (n : Node) (k m : Nat) (p : Peer) (h1 : 1 ≤ k) (hm : 1 ≤ m) (hne : m ≠ k) :
    peerAt (setPeer n k p) m = peerAt n m := by
  have h : k - 1 ≠ m - 1 := by omega
  simp [peerAt, setPeer, h1, hm, List.getD, h]

/-! ### Triggers and marks -/

@[simp] theorem cutPulse_cut (n : Node) : (cutPulse n).trig.cut = some 20 := rfl
@[simp] theorem cutPulse_entries (n : Node) : (cutPulse n).trig.entries = n.trig.entries := rfl
@[simp] theorem cancelTrigger_entries (n : Node) (tag : Nat) :
    (cancelTrigger n tag).1.trig.entries = n.trig.entries.filter fun x => decide (x.tag ≠ tag) := rfl
@[simp] theorem cancelTrigger_cut (n : Node) (tag : Nat) : (cancelTrigger n tag).1.trig.cut = n.trig.cut := rfl

@[simp] theorem startSpan_span (n : Node) (e : Pos) :
    (startSpan n e).marks.span = some { edge := e, cells := [], failed := false, stale := false } := rfl
@[simp] theorem countStray_stray (n : Node) : (countStray n).marks.stray = n.marks.stray + 1 := rfl
@[simp] theorem countUnclaimed_unclaimed (n : Node) : (countUnclaimed n).track.unclaimed = n.track.unclaimed + 1 := rfl

/-! ### Travel -/

@[simp] theorem moveOn_position (n : Node) : (moveOn n).travel.position = n.travel.position + 1 := rfl
@[simp] theorem moveOn_advances (n : Node) : (moveOn n).travel.advances = n.travel.advances + 1 := rfl
@[simp] theorem moveOn_motion (n : Node) : (moveOn n).travel.motion = .moving := rfl
@[simp] theorem moveOn_standstill (n : Node) : (moveOn n).travel.standstill = some 200 := rfl
@[simp] theorem moveOn_debt (n : Node) : (moveOn n).travel.debt = n.travel.debt := rfl
@[simp] theorem travelForget_lastBoundary (n : Node) : (travelForget n).travel.lastBoundary = none := rfl
@[simp] theorem travelForget_lastSpeed (n : Node) : (travelForget n).travel.lastSpeed = none := rfl
@[simp] theorem travelForget_speedStep (n : Node) : (travelForget n).travel.speedStep = false := rfl
@[simp] theorem clearSearch_alignCount (n : Node) : (clearSearch n).track.alignCount = 0 := rfl
@[simp] theorem clearSearch_missCount (n : Node) : (clearSearch n).track.missCount = 0 := rfl
@[simp] theorem clearSearch_predicted (n : Node) : (clearSearch n).track.predicted = none := rfl
@[simp] theorem clearSearch_tracker (n : Node) : (clearSearch n).track.tracker = n.track.tracker := rfl

/-! ### Held requests, outcomes in offer and the clash mark -/

@[simp] theorem holdRequest_held (n : Node) (q : HeldRequest) : (holdRequest n q).job.held = n.job.held ++ [q] := rfl
@[simp] theorem holdRequest_inOffer (n : Node) (q : HeldRequest) : (holdRequest n q).job.inOffer = n.job.inOffer := rfl
@[simp] theorem dropOutcome_outcomes (n : Node) (k : Nat) :
    (dropOutcome n k).label.outcomes = n.label.outcomes.filter fun x => decide (x.serial ≠ k) := rfl
@[simp] theorem dropOutcome_nextSerial (n : Node) (k : Nat) : (dropOutcome n k).label.nextSerial = n.label.nextSerial := rfl
@[simp] theorem driveClashMark_clashMark (n : Node) : (driveClashMark n).link.clashMark = 20 := rfl
@[simp] theorem driveClashMark_st (n : Node) : (driveClashMark n).st = n.st := rfl
@[simp] theorem driveClashMark_queue (n : Node) : (driveClashMark n).link.queue = n.link.queue := rfl
@[simp] theorem lightEdge_eyeDark (n : Node) : (lightEdge n).pins.eyeDark = false := rfl
@[simp] theorem lightEdge_track (n : Node) : (lightEdge n).track = n.track := rfl
@[simp] theorem withdrawRolls_sending (l : Link) (k : List RollContent) : (withdrawRolls l k).sending = l.sending := by
  unfold withdrawRolls
  dsimp only
  split
  · rfl
  · split <;> rfl

/-- The withdrawal of an abandoned piece's ROLL makes no queue longer. -/
theorem withdrawRolls_length (l : Link) (k : List RollContent) : (withdrawRolls l k).queue.length ≤ l.queue.length := by
  unfold withdrawRolls
  dsimp only
  split
  · exact Nat.le_refl _
  · next h rest hq =>
    split
    · rw [hq]; exact Nat.succ_le_succ (List.length_filter_le _ _)
    · rw [hq]; exact Nat.le_succ_of_le (List.length_filter_le _ _)

/-! ### The port -/

@[simp] theorem answer_out (n : Node) (st : Nat) (c : List ViewByte) :
    (answer n st c).port.out = byte st :: (be2 c.length ++ fillFrom n.freeIndex c) := rfl
@[simp] theorem answer_slot (n : Node) (st : Nat) (c : List ViewByte) : (answer n st c).port.slot = n.port.slot := rfl
@[simp] theorem answer_freeIndex (n : Node) (st : Nat) (c : List ViewByte) :
    (answer n st c).freeIndex = n.freeIndex + c.length := rfl

end Sys2Proof.Laws
end

