-- ==== Sys2Proof/Laws/Ops.lean ====
section
/-! SUPPORT. Everything each shared operation can do, said once: what it leaves (a view of the node with the blocks it may
write blanked is the same before and after), and how long it can make the transmit queue. -/

namespace Sys2Proof.Laws

open Sys2Proof.Machine

/-! ### Views -/

/-- The node without its Hold Unit, its Link Controller and its port: what the settling of the hold factors leaves. -/
def sansHold (n : Node) : Node := { n with hold := {}, link := {}, port := {} }

/-- The node without the Link Controller: what an offer leaves. -/
def sansLink (n : Node) : Node := { n with link := {} }

/-- The node without what a match report writes outside the Repeat Track. -/
def sansReport (n : Node) : Node :=
  { n with freeIndex := 0, travel := {}, marks := {}, trig := {}, job := {}, loop := {}, nip := {}, shade := {}, batch := {},
           hold := {}, roll := {}, link := {}, port := {} }

theorem eq_of_sansHold {a b : Node} (h : sansHold a = sansHold b) :
    a = { b with hold := a.hold, link := a.link, port := a.port } :=
  calc a = { sansHold a with hold := a.hold, link := a.link, port := a.port } := rfl
    _ = { sansHold b with hold := a.hold, link := a.link, port := a.port } := by rw [h]
    _ = { b with hold := a.hold, link := a.link, port := a.port } := rfl

theorem eq_of_sansLink {a b : Node} (h : sansLink a = sansLink b) : a = { b with link := a.link } :=
  calc a = { sansLink a with link := a.link } := rfl
    _ = { sansLink b with link := a.link } := by rw [h]
    _ = { b with link := a.link } := rfl

theorem sansHold_of_sansLink {a b : Node} (h : sansLink a = sansLink b) : sansHold a = sansHold b := by
  have h2 := congrArg sansHold h
  exact h2

theorem sansReport_of_sansLink {a b : Node} (h : sansLink a = sansLink b) : sansReport a = sansReport b := by
  have h2 := congrArg sansReport h
  exact h2

/-! ### Offers -/

theorem enqueue_sansLink (n : Node) (t : Telegram) (r : Bool) (b : OfferBy) :
    sansLink (enqueue n t r b).1 = sansLink n := by
  unfold enqueue
  dsimp only
  split
  · rfl
  · split
    · rfl
    · split
      · rfl
      · split <;> rfl

theorem offerPlain_sansLink (n : Node) (t : Telegram) : sansLink (offerPlain n t) = sansLink n :=
  enqueue_sansLink n t false .plain

theorem offerAgain_sansLink (n : Node) (t : Telegram) (r : Bool) (b : OfferBy) (o : Reoffer) :
    sansLink (offerAgain n t r b o) = sansLink n := by
  have h := enqueue_sansLink n t r b
  unfold offerAgain
  split
  · next m hm => rw [hm] at h; exact h
  · next m _ _ hm => rw [hm] at h; exact h

theorem removeFirst_length {α : Type} (p : α → Bool) (l m : List α) (h : removeFirst p l = some m) :
    m.length + 1 = l.length := by
  induction l generalizing m with
  | nil => simp [removeFirst] at h
  | cons x xs ih =>
    unfold removeFirst at h
    split at h
    · cases h; rfl
    · cases hx : removeFirst p xs with
      | none => simp [hx] at h
      | some k =>
        simp only [hx, Option.map_some, Option.some.injEq] at h
        subst h
        simp [ih k hx]

theorem evictRoutine_length (q r : List QEntry) (h : evictRoutine q = some r) : r.length + 1 = q.length := by
  cases q with
  | nil => simp [evictRoutine] at h
  | cons x xs =>
    unfold evictRoutine at h
    cases hx : removeFirst (fun e : QEntry => e.telegram.routine) xs with
    | none => simp [hx] at h
    | some k =>
      simp only [hx, Option.map_some, Option.some.injEq] at h
      subst h
      simp [removeFirst_length _ _ _ hx]

/-- An offer leaves a queue of at most 16 entries with at most 16. -/
theorem enqueue_length (n : Node) (t : Telegram) (r : Bool) (b : OfferBy) (h : n.link.queue.length ≤ 16) :
    (enqueue n t r b).1.link.queue.length ≤ 16 := by
  unfold enqueue
  dsimp only
  split
  · exact h
  · split
    · next hl => simp only [List.length_append, List.length_singleton]; omega
    · split
      · exact h
      · split
        · next q hq =>
          have := evictRoutine_length _ _ hq
          simp only [List.length_append, List.length_singleton]; omega
        · exact h

/-- In a queue with room, of a node that takes the kind, an offer is placed at the tail. -/
theorem enqueue_placed (n : Node) (t : Telegram) (r : Bool) (b : OfferBy) (hm : mayOffer n t = true)
    (hl : n.link.queue.length < 16) :
    enqueue n t r b =
      ({ n with link := { n.link with queue := n.link.queue ++ [{ telegram := t, restate := r, offerBy := b }] } }, .placed) := by
  simp [enqueue, hm, hl]

/-- A node that does not take the kind leaves the offer without a count. -/
theorem enqueue_silent (n : Node) (t : Telegram) (r : Bool) (b : OfferBy) (hm : mayOffer n t = false) :
    enqueue n t r b = (n, .silent) := by
  simp [enqueue, hm]

theorem offerAgain_length (n : Node) (t : Telegram) (r : Bool) (b : OfferBy) (o : Reoffer)
    (h : n.link.queue.length ≤ 16) : (offerAgain n t r b o).link.queue.length ≤ 16 := by
  have hl := enqueue_length n t r b h
  unfold offerAgain
  split
  · next m hm => rw [hm] at hl; exact hl
  · next m _ _ hm => rw [hm] at hl; exact hl

/-! ### The Hold Unit -/

@[simp] theorem sansHold_attend (n : Node) (c : BitVec 4) : sansHold (attend n c) = sansHold n := rfl
@[simp] theorem sansHold_countRefusal (n : Node) : sansHold (countRefusal n) = sansHold n := rfl
@[simp] theorem sansHold_raiseLinkFault (n : Node) : sansHold (raiseLinkFault n) = sansHold n := rfl
@[simp] theorem sansHold_refuseLater (n : Node) (r : Reoffer) : sansHold (refuseLater n r) = sansHold n := rfl

@[simp] theorem sansHold_endRequest (n : Node) (s : SlotState) : sansHold (endRequest n s) = sansHold n := by
  unfold endRequest
  split <;> rfl

@[simp] theorem sansHold_setHoldState (n : Node) (h : HoldState) : sansHold (setHoldState n h) = sansHold n := by
  unfold setHoldState
  split <;> rfl

@[simp] theorem setHoldState_state (n : Node) (h : HoldState) : (setHoldState n h).hold.state = h := by
  unfold setHoldState
  split
  · assumption
  · rfl

@[simp] theorem sansHold_setHold (n : Node) (f : CauseSet) : sansHold (setHold n f) = sansHold n := by
  unfold setHold
  rw [sansHold_setHoldState]
  rfl

@[simp] theorem sansHold_growHold (n : Node) (o : OwnHold) (f : CauseSet) : sansHold (growHold n o f) = sansHold n := by
  unfold growHold
  dsimp only
  rw [sansHold_setHoldState]
  split <;> rfl

@[simp] theorem sansHold_beginQuiet (n : Node) (f : CauseSet) : sansHold (beginQuiet n f) = sansHold n := by
  unfold beginQuiet
  split
  · rw [sansHold_setHoldState]; rfl
  · rfl

@[simp] theorem sansHold_holdAbsorb (n : Node) : sansHold (holdAbsorb n) = sansHold n := by
  unfold holdAbsorb
  dsimp only
  have : ∀ m : Node, sansHold { m with hold := { m.hold with seen := factorSet n } } = sansHold m := fun _ => rfl
  rw [this, sansHold_beginQuiet]
  split
  · rfl
  · split <;> simp

@[simp] theorem sansHold_holdOffer (n : Node) : sansHold (holdOffer n) = sansHold n := by
  unfold holdOffer
  split
  · rfl
  · next w _ =>
    have h := sansHold_of_sansLink (enqueue_sansLink n (statementTelegram w) false .hold)
    split
    · rfl
    · split
      · next m hm => rw [hm] at h; exact h
      · next m hm => rw [hm] at h; exact h
      · next m _ _ _ hm => rw [hm] at h; exact h

@[simp] theorem sansHold_holdOfferWanted (n : Node) : sansHold (holdOfferWanted n) = sansHold n := by
  simp [holdOfferWanted]

/-- The settling of the hold factors writes the Hold Unit, the Link Controller and the port, and nothing else. -/
@[simp] theorem sansHold_holdSettle (n : Node) : sansHold (holdSettle n) = sansHold n := by
  unfold holdSettle
  split
  · rfl
  · split
    · rfl
    · dsimp only
      split <;> simp

@[simp] theorem sansHold_clearHold (n : Node) (m : Nat) : sansHold (clearHold n m) = sansHold n := by
  unfold clearHold
  split
  · rfl
  · rw [sansHold_holdOfferWanted, sansHold_setHoldState]; rfl

@[simp] theorem sansHold_quietRepeat (n : Node) : sansHold (quietRepeat n) = sansHold n := by
  unfold quietRepeat
  split
  · rfl
  · split
    · rfl
    · split
      · rw [sansHold_setHoldState]; rfl
      · simp

@[simp] theorem sansHold_holdReport (n : Node) : sansHold (holdReport n) = sansHold n := by
  simp [holdReport]

theorem holdSettle_eq (n : Node) :
    holdSettle n = { n with hold := (holdSettle n).hold, link := (holdSettle n).link, port := (holdSettle n).port } :=
  eq_of_sansHold (sansHold_holdSettle n)

theorem holdReport_eq (n : Node) :
    holdReport n = { n with hold := (holdReport n).hold, link := (holdReport n).link, port := (holdReport n).port } :=
  eq_of_sansHold (sansHold_holdReport n)

end Sys2Proof.Laws
end

