-- ==== Sys2Proof/Laws/Blocks.lean ====
section
/-! SUPPORT. What the shared operations of each block write: a view of the node with those fields blanked is the same before
and after, so that a proof about one block need not open another; and that none of them makes the transmit queue longer than
its 16 entries. -/

namespace Sys2Proof.Laws

open Sys2Proof.Machine

/-- The transmit queue within its bound of R31. -/
abbrev QueueFits (n : Node) : Prop := n.link.queue.length ≤ 16

/-! ### The Trigger Table -/

/-- The node without its Trigger Table. -/
def sansTrig (n : Node) : Node := { n with trig := {} }

theorem armTrigger_sansTrig (n : Node) (out : TriggerOutput) (p : Pos) (tag : Nat) :
    sansTrig (armTrigger n out p tag).1 = sansTrig n := by
  unfold armTrigger
  dsimp only
  split
  · dsimp only; split <;> rfl
  · split
    · rfl
    · split <;> rfl

theorem insertTrigger_length (e : TriggerEntry) (l : List TriggerEntry) : (insertTrigger e l).length = l.length + 1 := by
  induction l with
  | nil => rfl
  | cons x xs ih =>
    unfold insertTrigger
    split
    · simp [ih]
    · rfl

/-- An arm request leaves a table of at most 8 entries with at most 8. -/
theorem armTrigger_length (n : Node) (out : TriggerOutput) (p : Pos) (tag : Nat) (h : n.trig.entries.length ≤ 8) :
    (armTrigger n out p tag).1.trig.entries.length ≤ 8 := by
  unfold armTrigger
  dsimp only
  split
  · dsimp only; split <;> exact h
  · split
    · next hl => simp only [insertTrigger_length]; omega
    · split
      · next hl => simp only [insertTrigger_length]; omega
      · exact h

theorem cancelTrigger_length (n : Node) (tag : Nat) (h : n.trig.entries.length ≤ 8) :
    (cancelTrigger n tag).1.trig.entries.length ≤ 8 := by
  have hf : (n.trig.entries.filter fun x => decide (x.tag ≠ tag)).length ≤ n.trig.entries.length := List.length_filter_le _ _
  exact Nat.le_trans hf h

/-! ### The queue under the small operations -/

theorem offerPlain_queue (n : Node) (t : Telegram) (h : QueueFits n) : QueueFits (offerPlain n t) :=
  enqueue_length n t false .plain h

theorem holdOffer_queue (n : Node) (h : QueueFits n) : QueueFits (holdOffer n) := by
  unfold holdOffer
  split
  · exact h
  · next w _ =>
    have hl := enqueue_length n (statementTelegram w) false .hold h
    split
    · exact h
    · split
      · next m hm => rw [hm] at hl; exact hl
      · next m hm => rw [hm] at hl; exact hl
      · next m _ _ _ hm => rw [hm] at hl; exact hl

theorem setHoldState_link (n : Node) (st : HoldState) : (setHoldState n st).link = n.link := by
  unfold setHoldState
  split <;> rfl

theorem holdAbsorb_link (n : Node) : (holdAbsorb n).link = n.link := by
  unfold holdAbsorb
  dsimp only
  have hb : ∀ (m : Node) (f : CauseSet), (beginQuiet m f).link = m.link := by
    intro m f
    unfold beginQuiet
    split
    · rw [setHoldState_link]
    · rfl
  rw [hb]
  split
  · rfl
  · split
    · unfold setHold; rw [setHoldState_link]
    · unfold growHold
      dsimp only
      rw [setHoldState_link]
      split <;> rfl

theorem holdOfferWanted_queue (n : Node) (h : QueueFits n) : QueueFits (holdOfferWanted n) := by
  unfold holdOfferWanted QueueFits
  rw [holdAbsorb_link]
  exact holdOffer_queue n h

theorem holdSettle_queue (n : Node) (h : QueueFits n) : QueueFits (holdSettle n) := by
  have ha : QueueFits (holdAbsorb n) := by unfold QueueFits; rw [holdAbsorb_link]; exact h
  unfold holdSettle
  split
  · exact h
  · split
    · exact h
    · dsimp only
      split
      · exact ha
      · exact holdOfferWanted_queue _ ha

theorem clearHold_queue (n : Node) (m : Nat) (h : QueueFits n) : QueueFits (clearHold n m) := by
  unfold clearHold
  split
  · exact h
  · apply holdOfferWanted_queue
    unfold QueueFits
    rw [setHoldState_link]
    exact h

theorem holdReport_queue (n : Node) (h : QueueFits n) : QueueFits (holdReport n) := by
  unfold holdReport quietRepeat
  have hs := holdSettle_queue n h
  split
  · exact hs
  · split
    · exact hs
    · split
      · unfold QueueFits; rw [setHoldState_link]; exact hs
      · exact clearHold_queue _ _ hs

/-! ### The Register Loop -/

/-- The node without the loop, the nip reports it carries, and the Link Controller. -/
def sansLoop (n : Node) : Node := { n with loop := {}, nip := {}, link := {} }

theorem takeReport_sansLoop (n : Node) : sansLoop (takeReport n).2 = sansLoop n := by
  unfold takeReport
  split
  · split <;> rfl
  · rfl

theorem takeReport_link (n : Node) : (takeReport n).2.link = n.link := by
  unfold takeReport
  split
  · split <;> rfl
  · rfl

theorem offerRegister_sansLoop (n : Node) (i : LoopInput) (steps : Int) :
    sansLoop (offerRegister n i steps) = sansLoop n := by
  unfold offerRegister
  dsimp only
  have h := congrArg sansLoop (offerPlain_sansLink (takeReport n).2
    (.register { number := i.number, slot := (cfg n).colourSlot, state := n.loop.state, steps := steps,
                 error := i.error, nip := (takeReport n).1 }))
  exact h.trans (takeReport_sansLoop n)

/-- R85: a result changes the loop, the coverage reports of the nip and the transmit queue, and nothing else. -/
theorem loopResult_sansLoop (n : Node) (i : LoopInput) : sansLoop (loopResult n i) = sansLoop n := by
  unfold loopResult
  dsimp only
  exact offerRegister_sansLoop _ i _

theorem loopResult_queue (n : Node) (i : LoopInput) (h : QueueFits n) : QueueFits (loopResult n i) := by
  unfold loopResult offerRegister
  dsimp only
  apply offerPlain_queue
  unfold QueueFits
  rw [takeReport_link]
  exact h

/-- R97: a result leaves the settle count. -/
theorem loopResult_settle (n : Node) (i : LoopInput) : (loopResult n i).loop.settle = n.loop.settle := by
  have ho : ∀ (m : Node) (st : Int), (offerRegister m i st).loop = m.loop := by
    intro m st
    have hv := congrArg Node.loop (offerPlain_sansLink (takeReport m).2
      (.register { number := i.number, slot := (cfg m).colourSlot, state := m.loop.state, steps := st,
                   error := i.error, nip := (takeReport m).1 }))
    refine Eq.trans hv ?_
    show (takeReport m).2.loop = m.loop
    unfold takeReport
    split
    · split <;> rfl
    · rfl
  have hp : ∀ (c : Config) (q : Bool) (e : Int) (l : RegLoop), (presentResult c q e l).settle = l.settle := by
    intro c q e l
    unfold presentResult
    dsimp only
    split
    · unfold openPresent enterCapture; (repeat' split) <;> rfl
    · unfold farPresent enterCapture; split <;> rfl
    · unfold capturePresent; (repeat' split) <;> rfl
    · unfold lockedPresent enterCapture; (repeat' split) <;> rfl
  have hc : ∀ (c : Config) (x : Nat) (st : Int) (l : RegLoop), (issueCorrection c x st l).settle = l.settle := by
    intro c x st l
    unfold issueCorrection
    dsimp only
    split <;> rfl
  have hab : ∀ l : RegLoop, (absentResult l).settle = l.settle := by
    intro l
    unfold absentResult
    (repeat' split) <;> rfl
  unfold loopResult
  dsimp only
  rw [ho]
  dsimp only
  cases i.error with
  | none => exact hab n.loop
  | some e =>
    dsimp only
    split
    · rw [hc, hp]
    · rw [hp]

/-! ### The Mark Reader -/

/-- The node without what a register window or a tally read writes. -/
def sansMarks (n : Node) : Node := { n with marks := {}, job := {}, loop := {}, nip := {}, link := {} }

theorem sansMarks_of_sansLoop {a b : Node} (h : sansLoop a = sansLoop b) : sansMarks a = sansMarks b := by
  have h2 := congrArg sansMarks h
  exact h2

theorem takeWindow_sansMarks (n : Node) (w : RegWindow) : sansMarks (takeWindow n w) = sansMarks n := by
  unfold takeWindow
  dsimp only
  exact (sansMarks_of_sansLoop (loopResult_sansLoop _ _)).trans rfl

theorem takeWindow_queue (n : Node) (w : RegWindow) (h : QueueFits n) : QueueFits (takeWindow n w) := by
  unfold takeWindow
  dsimp only
  exact loopResult_queue _ _ h

theorem takeIfCertain_sansMarks (n : Node) : sansMarks (takeIfCertain n) = sansMarks n := by
  unfold takeIfCertain
  split
  · rfl
  · split
    · exact takeWindow_sansMarks _ _
    · rfl

theorem takeIfCertain_queue (n : Node) (h : QueueFits n) : QueueFits (takeIfCertain n) := by
  unfold takeIfCertain
  split
  · exact h
  · split
    · exact takeWindow_queue _ _ h
    · exact h

theorem closeWindow_sansMarks (n : Node) : sansMarks (closeWindow n) = sansMarks n := by
  unfold closeWindow
  split
  · rfl
  · exact takeWindow_sansMarks _ _

theorem closeWindow_queue (n : Node) (h : QueueFits n) : QueueFits (closeWindow n) := by
  unfold closeWindow
  split
  · exact h
  · exact takeWindow_queue _ _ h

theorem openWindow_sansMarks (n : Node) (x : Nat) (e : Pos) (sy tr : Bool) : sansMarks (openWindow n x e sy tr) = sansMarks n := by
  unfold openWindow
  split
  · rfl
  · split
    · exact sansMarks_of_sansLoop (loopResult_sansLoop _ _)
    · dsimp only
      exact (takeIfCertain_sansMarks _).trans rfl

theorem openWindow_queue (n : Node) (x : Nat) (e : Pos) (sy tr : Bool) (h : QueueFits n) :
    QueueFits (openWindow n x e sy tr) := by
  unfold openWindow
  split
  · exact h
  · split
    · exact loopResult_queue _ _ h
    · dsimp only
      exact takeIfCertain_queue _ h

/-- The node without its Mark Reader and Job Unit. -/
def sansRead (n : Node) : Node := { n with marks := {}, job := {} }

theorem tallyCheck_sansRead (n : Node) : sansRead (tallyCheck n) = sansRead n := by
  unfold tallyCheck
  split <;> rfl

theorem enterRead_sansRead (n : Node) (r : Option Nat) : sansRead (enterRead n r) = sansRead n := by
  unfold enterRead
  dsimp only
  split
  · split
    · rfl
    · rw [tallyCheck_sansRead]; rfl
  · split
    · rfl
    · rw [tallyCheck_sansRead]; rfl

/-- R12, R13, R78: a span that ends writes the Mark Reader and the Job Unit, and nothing else. -/
theorem endSpan_sansRead (n : Node) (sp : TallySpan) (r : Option Nat) : sansRead (endSpan n sp r) = sansRead n := by
  unfold endSpan lowerSuspension
  split
  · exact (enterRead_sansRead _ r).trans rfl
  · dsimp only
    split
    · rw [tallyCheck_sansRead]; exact (enterRead_sansRead _ r).trans rfl
    · exact (enterRead_sansRead _ r).trans rfl

/-! ### The Travel Unit -/

/-- R6: a repeat boundary writes the Travel Unit and takes free values, and nothing else. -/
theorem boundary_eq (n : Node) (e : Pos) (t : Nat) (c : Bool) :
    boundary n e t c = { n with travel := (boundary n e t c).travel, freeIndex := (boundary n e t c).freeIndex } := by
  unfold boundary
  dsimp only
  (repeat' split) <;> rfl

/-! ### The Batch Unit and the Shade Integrator -/

/-- The node without the Shade Integrator, the Batch Unit, the Link Controller and the count of free values. -/
def sansShade (n : Node) : Node := { n with shade := {}, batch := {}, link := {}, freeIndex := 0 }

theorem sansShade_of_sansLink {a b : Node} (h : sansLink a = sansLink b) : sansShade a = sansShade b := by
  have h2 := congrArg sansShade h
  exact h2

/-- What a block operation of the SHADE node keeps: everything outside `sansShade`, and the bound of the queue. -/
structure ShadeKeeps (a b : Node) : Prop where
  view : sansShade a = sansShade b
  queue : QueueFits b → QueueFits a

theorem ShadeKeeps.of_eq {a b : Node} (h : sansShade a = sansShade b) (hl : a.link = b.link) : ShadeKeeps a b :=
  ⟨h, fun hq => by unfold QueueFits; rw [hl]; exact hq⟩

theorem ShadeKeeps.trans {a b c : Node} (h1 : ShadeKeeps a b) (h2 : ShadeKeeps b c) : ShadeKeeps a c :=
  ⟨h1.view.trans h2.view, fun hq => h1.queue (h2.queue hq)⟩

theorem ShadeKeeps.self (n : Node) : ShadeKeeps n n := ⟨rfl, fun h => h⟩

theorem offerAgain_shadeKeeps (n : Node) (t : Telegram) (r : Bool) (b : OfferBy) (o : Reoffer) :
    ShadeKeeps (offerAgain n t r b o) n :=
  ⟨sansShade_of_sansLink (offerAgain_sansLink n t r b o), offerAgain_length n t r b o⟩

theorem openBatch_shadeKeeps (n : Node) (f : Nat) (r : BatchReason) : ShadeKeeps (openBatch n f r) n := by
  unfold openBatch
  split
  · exact .self n
  · split
    · split
      · exact .self n
      · exact (offerAgain_shadeKeeps _ _ _ _ _).trans (.of_eq rfl rfl)
    · split
      · exact .self n
      · exact (offerAgain_shadeKeeps _ _ _ _ _).trans (.of_eq rfl rfl)

theorem fixOwn_shadeKeeps (n : Node) (b : OwnBatch) : ShadeKeeps (fixOwn n b) n := by
  unfold fixOwn
  dsimp only
  refine (offerAgain_shadeKeeps _ _ _ _ _).trans ?_
  split
  · exact .of_eq rfl rfl
  · exact .of_eq rfl rfl

theorem formMean_shadeKeeps (n : Node) (m : Triple) : ShadeKeeps (formMean n m) n := by
  unfold formMean
  split
  · exact .self n
  · split
    · dsimp only
      split
      · exact .of_eq rfl rfl
      · exact fixOwn_shadeKeeps n _
    · exact .self n

theorem formOrTest_shadeKeeps (n : Node) (g : Graded) : ShadeKeeps (formOrTest n g).1 n := by
  unfold formOrTest
  split
  · split
    · exact .self n
    · split
      · exact formMean_shadeKeeps n _
      · dsimp only
        split <;> exact .of_eq rfl rfl
  · exact .self n

theorem passHeld_shadeKeeps (gs : List Graded) (n : Node) : ShadeKeeps (passHeld gs n).1 n := by
  induction gs generalizing n with
  | nil => exact .self n
  | cons g gs ih =>
    unfold passHeld
    have h := formOrTest_shadeKeeps n g
    split
    · next m f hm => rw [hm] at h; exact h
    · next m hm => rw [hm] at h; exact (ih m).trans h

theorem releaseWatch_shadeKeeps (n : Node) : ShadeKeeps (releaseWatch n).1 n := by
  unfold releaseWatch
  split
  · exact .self n
  · exact (passHeld_shadeKeeps _ _).trans (.of_eq rfl rfl)

theorem decideDrift_shadeKeeps (r : Node × Option Nat) : ShadeKeeps (decideDrift r) r.1 := by
  unfold decideDrift
  split
  · exact .self _
  · exact openBatch_shadeKeeps _ _ _

theorem decideOpening_shadeKeeps (n : Node) (f : Nat) (r : BatchReason) : ShadeKeeps (decideOpening n f r) n := by
  unfold decideOpening
  split
  · exact .self n
  · split
    · exact .of_eq rfl rfl
    · split
      · exact .self n
      · split
        · exact .self n
        · dsimp only
          exact (decideDrift_shadeKeeps _).trans
            ((openBatch_shadeKeeps _ _ _).trans ((releaseWatch_shadeKeeps _).trans (.of_eq rfl rfl)))

theorem decideWatch_shadeKeeps (n : Node) (w : StepWatch) : ShadeKeeps (decideWatch n w) n := by
  unfold decideWatch
  dsimp only
  have h0 : ∀ k : Option StepWatch, ShadeKeeps
      { (if (curPattern n).isNone then useFree n 3 else n) with
        batch := { (if (curPattern n).isNone then useFree n 3 else n).batch with watch := k } } n := by
    intro k
    split <;> exact .of_eq rfl rfl
  split
  · split
    · exact (openBatch_shadeKeeps _ _ _).trans (h0 none)
    · exact h0 none
  · exact (decideDrift_shadeKeeps _).trans ((releaseWatch_shadeKeeps _).trans (h0 (some w)))

theorem holdByWatch_shadeKeeps (n : Node) (w : StepWatch) (g : Graded) : ShadeKeeps (holdByWatch n w g) n := by
  unfold holdByWatch
  dsimp only
  split
  · exact .of_eq rfl rfl
  · exact decideWatch_shadeKeeps n _

theorem firstOpening_shadeKeeps (n : Node) (g : Graded) : ShadeKeeps (firstOpening n g) n := by
  unfold firstOpening
  split
  · exact .self n
  · split
    · exact (openBatch_shadeKeeps _ _ _).trans (.of_eq rfl rfl)
    · exact .self n

theorem takeGraded_shadeKeeps (n : Node) (g : Graded) : ShadeKeeps (takeGraded n g) n := by
  unfold takeGraded
  dsimp only
  refine (firstOpening_shadeKeeps _ g).trans ?_
  split
  · split
    · exact (holdByWatch_shadeKeeps _ _ g).trans (.of_eq rfl rfl)
    · exact (decideDrift_shadeKeeps _).trans ((formOrTest_shadeKeeps _ g).trans (.of_eq rfl rfl))
  · exact .of_eq rfl rfl

theorem offerPlain_shadeKeeps (n : Node) (t : Telegram) : ShadeKeeps (offerPlain n t) n :=
  ⟨sansShade_of_sansLink (offerPlain_sansLink n t), offerPlain_queue n t⟩

theorem shadeFactors_shadeKeeps (n : Node) (g : ShadeGrade) : ShadeKeeps (shadeFactors n g) n := .of_eq rfl rfl

theorem closeShadeWindow_shadeKeeps (n : Node) : ShadeKeeps (closeShadeWindow n) n := by
  unfold closeShadeWindow
  split
  · exact .self n
  · dsimp only
    exact (takeGraded_shadeKeeps _ _).trans
      ((shadeFactors_shadeKeeps _ _).trans ((offerPlain_shadeKeeps _ _).trans (.of_eq rfl rfl)))

theorem openShadeWindow_shadeKeeps (n : Node) (x : Nat) : ShadeKeeps (openShadeWindow n x) n := .of_eq rfl rfl

theorem startWatch_shadeKeeps (n : Node) : ShadeKeeps (startWatch n) n := by
  unfold startWatch
  dsimp only
  split
  · exact .of_eq rfl rfl
  · exact .self n

theorem startCalibration_shadeKeeps (n : Node) : ShadeKeeps (startCalibration n) n := by
  unfold startCalibration
  split
  · dsimp only
    exact (startWatch_shadeKeeps _).trans
      ((decideDrift_shadeKeeps _).trans ((releaseWatch_shadeKeeps _).trans (.of_eq rfl rfl)))
  · exact .self n

/-- The Shade Integrator and the Batch Unit at a match report write themselves, the transmit queue and the count of free
values, and nothing else. -/
theorem shadeReport_shadeKeeps (n : Node) (x : Nat) (sw : Option Nat) : ShadeKeeps (shadeReport n x sw) n := by
  have hc := closeShadeWindow_shadeKeeps n
  unfold shadeReport
  split
  · dsimp only
    refine (openShadeWindow_shadeKeeps _ x).trans ((startCalibration_shadeKeeps _).trans ?_)
    split
    · unfold batchSwitch
      dsimp only
      exact (decideDrift_shadeKeeps _).trans ((releaseWatch_shadeKeeps _).trans ((decideOpening_shadeKeeps _ _ _).trans hc))
    · exact hc
  · exact .self n

/-! ### The Nip Controller -/

/-- The node without its Nip Controller and Trigger Table. -/
def sansNip (n : Node) : Node := { n with nip := {}, trig := {} }

theorem sansNip_of_sansTrig {a b : Node} (h : sansTrig a = sansTrig b) : sansNip a = sansNip b := by
  have h2 := congrArg sansNip h
  exact h2

theorem openNip_sansNip (n : Node) : sansNip (openNip n) = sansNip n := by
  unfold openNip moveNip setNip
  split <;> rfl

theorem closeNip_sansNip (n : Node) : sansNip (closeNip n) = sansNip n := by
  unfold closeNip moveNip setNip
  split
  · split <;> rfl
  · rfl

theorem cancelRegular_sansNip (n : Node) : sansNip (cancelRegular n) = sansNip n := by
  unfold cancelRegular
  split <;> rfl

theorem openDone_sansNip (n : Node) : sansNip (openDone n) = sansNip n := rfl

theorem testRegular_sansNip (n : Node) (e : Pos) : sansNip (testRegular n e) = sansNip n := by
  have h := sansNip_of_sansTrig (armTrigger_sansTrig n .nipClose (movePos e (cfg n).eyeToNip) 1)
  unfold testRegular
  split
  · split
    · next m hm => rw [hm] at h; exact h
    · next m hm => rw [hm] at h; exact (closeNip_sansNip m).trans h
    · next m hm => rw [hm] at h; exact h
  · rfl

theorem armOpen_sansNip (n : Node) (o : Pos) : sansNip (armOpen n o) = sansNip n := by
  have h := sansNip_of_sansTrig (armTrigger_sansTrig n .nipOpen o 2)
  unfold armOpen
  split
  · next m hm => rw [hm] at h; exact h
  · next m _ _ hm =>
    rw [hm] at h
    exact (openDone_sansNip _).trans ((openNip_sansNip m).trans h)

theorem armReclose_sansNip (n : Node) : sansNip (armReclose n) = sansNip n := by
  unfold armReclose
  split
  · rfl
  · next q _ =>
    have h := sansNip_of_sansTrig (armTrigger_sansTrig n .nipClose q.reclose 3)
    split
    · next m hm => rw [hm] at h; exact h
    · next m hm => rw [hm] at h; exact (closeNip_sansNip _).trans h
    · next m hm => rw [hm] at h; exact h

theorem startPassage_sansNip (n : Node) (o : Option Pos) (c : Pos) : sansNip (startPassage n o c) = sansNip n := by
  unfold startPassage
  dsimp only
  rw [armReclose_sansNip]
  split
  · rw [openDone_sansNip, openNip_sansNip]
    exact cancelRegular_sansNip n
  · rw [armOpen_sansNip]
    exact cancelRegular_sansNip n

theorem mergeOpen_sansNip (n : Node) (q : Passage) (o : Option Pos) : sansNip (mergeOpen n q o) = sansNip n := by
  unfold mergeOpen
  split
  · exact openNip_sansNip n
  · exact openNip_sansNip n
  · split
    · exact armOpen_sansNip n _
    · rfl
  · rfl

theorem takeSplice_sansNip (n : Node) (o : Option Pos) (c : Pos) : sansNip (takeSplice n o c) = sansNip n := by
  unfold takeSplice
  split
  · exact startPassage_sansNip n o c
  · unfold mergePassage
    dsimp only
    split
    · rw [armReclose_sansNip]
      exact mergeOpen_sansNip n _ o
    · exact mergeOpen_sansNip n _ o

theorem nipSplices_sansNip (n : Node) (e : Pos) (s : Option Nat) (m : Bool) : sansNip (nipSplices n e s m) = sansNip n := by
  unfold nipSplices
  split
  · rfl
  · dsimp only
    split
    · split
      · exact takeSplice_sansNip n _ _
      · rfl
    · rw [takeSplice_sansNip]
      split
      · exact takeSplice_sansNip n _ _
      · rfl

/-- The Nip Controller at a match report writes itself and the Trigger Table, and nothing else. -/
theorem nipReport_sansNip (n : Node) (x : Nat) (e : Pos) (real sw : Bool) (s : Option Nat) (m : Bool) :
    sansNip (nipReport n x e real sw s m) = sansNip n := by
  have h1 : sansNip (if sw then nipSwitch n else n) = sansNip n := by
    split
    · unfold nipSwitch
      dsimp only
      split
      · exact (openNip_sansNip _).trans (cancelRegular_sansNip n)
      · exact cancelRegular_sansNip n
    · rfl
  have hr : ∀ k : Node, sansNip (retryReclose k) = sansNip k := by
    intro k
    unfold retryReclose
    split
    · split
      · rfl
      · exact armReclose_sansNip k
    · rfl
  have ha : ∀ k : Node, sansNip (appendSpan k x e) = sansNip k := fun _ => rfl
  unfold nipReport
  split
  · rfl
  · dsimp only
    rw [ha]
    split
    · rw [testRegular_sansNip, nipSplices_sansNip, hr, h1]
    · rw [nipSplices_sansNip, hr, h1]

/-! ### The Roll Builder -/

/-- The node without its Roll Builder, Trigger Table and Link Controller. -/
def sansRoll (n : Node) : Node := { n with roll := {}, trig := {}, link := {} }

/-- What an operation of the Roll Builder keeps: everything outside `sansRoll`, and the bound of the queue. -/
structure RollKeeps (a b : Node) : Prop where
  view : sansRoll a = sansRoll b
  queue : QueueFits b → QueueFits a

theorem RollKeeps.of_eq {a b : Node} (h : sansRoll a = sansRoll b) (hl : a.link = b.link) : RollKeeps a b :=
  ⟨h, fun hq => by unfold QueueFits; rw [hl]; exact hq⟩

theorem RollKeeps.trans {a b c : Node} (h1 : RollKeeps a b) (h2 : RollKeeps b c) : RollKeeps a c :=
  ⟨h1.view.trans h2.view, fun hq => h1.queue (h2.queue hq)⟩

theorem roll_rollKeeps (n : Node) (u : RollUnit) : RollKeeps { n with roll := u } n := .of_eq rfl rfl

theorem RollKeeps.self (n : Node) : RollKeeps n n := ⟨rfl, fun h => h⟩

theorem offerAgain_rollKeeps (n : Node) (t : Telegram) (r : Bool) (b : OfferBy) (o : Reoffer) :
    RollKeeps (offerAgain n t r b o) n := by
  have h := congrArg sansRoll (offerAgain_sansLink n t r b o)
  exact ⟨h, offerAgain_length n t r b o⟩

theorem offerRoll_rollKeeps (n : Node) (x : Nat) : RollKeeps (offerRoll n x) n := by
  unfold offerRoll
  split
  · exact .self n
  · exact offerAgain_rollKeeps n _ _ _ _

theorem offerRegrade_rollKeeps (n : Node) (x : Nat) (ch : RollChange) : RollKeeps (offerRegrade n x ch) n := by
  unfold offerRegrade
  split
  · exact .self n
  · exact offerAgain_rollKeeps n _ _ _ _

/-- R165: a firing writes the Roll Builder and the transmit queue, and nothing else. -/
theorem fireCut_rollKeeps (n : Node) (e : PlanEntry) (p : Pos) : RollKeeps (fireCut n e p) n := by
  unfold fireCut
  dsimp only
  split
  · refine (offerRoll_rollKeeps _ _).trans ⟨rfl, ?_⟩
    exact fun hq => Nat.le_trans (withdrawRolls_length _ _) hq
  · exact .of_eq rfl rfl

theorem cutFired_rollKeeps (n : Node) (tag : Nat) (p : Pos) : RollKeeps (cutFired n tag p) n := by
  unfold cutFired
  split
  · exact .self n
  · exact fireCut_rollKeeps n _ p

theorem armTrigger_link (n : Node) (out : TriggerOutput) (p : Pos) (tag : Nat) :
    (armTrigger n out p tag).1.link = n.link := by
  have h := congrArg Node.link (armTrigger_sansTrig n out p tag)
  exact h

theorem armTrigger_rollKeeps (n m : Node) (out : TriggerOutput) (p : Pos) (tag : Nat) (a : ArmAnswer)
    (hm : armTrigger n out p tag = (m, a)) : RollKeeps m n := by
  have h := congrArg sansRoll (armTrigger_sansTrig n out p tag)
  have hl := armTrigger_link n out p tag
  rw [hm] at h hl
  exact .of_eq h hl

theorem armEntry_rollKeeps (n : Node) (e : PlanEntry) (edge : Pos) : RollKeeps (armEntry n e edge) n := by
  unfold armEntry
  dsimp only
  split
  · next m hm => exact (armTrigger_rollKeeps _ _ _ _ _ _ hm).trans (roll_rollKeeps n _)
  · next m hm => exact (roll_rollKeeps m _).trans ((armTrigger_rollKeeps _ _ _ _ _ _ hm).trans (roll_rollKeeps n _))
  · next m hm =>
    have h := (armTrigger_rollKeeps _ _ _ _ _ _ hm).trans (roll_rollKeeps n _)
    split
    · exact (fireCut_rollKeeps _ _ _).trans ((roll_rollKeeps m _).trans h)
    · exact (roll_rollKeeps m _).trans h

theorem openStart_rollKeeps (n : Node) (x : Nat) (e : Pos) : RollKeeps (openStart n x e) n := by
  unfold openStart
  split
  · exact .of_eq rfl rfl
  · exact .self n

/-- The Roll Builder at a match report writes itself, the Trigger Table and the transmit queue, and nothing else. -/
theorem rollReport_rollKeeps (n : Node) (x : Nat) (e : Pos) (real : Bool) (sw : Option Nat) :
    RollKeeps (rollReport n x e real sw) n := by
  have ha : ∀ k : Node, RollKeeps (armCuts k x e) k := by
    intro k
    unfold armCuts
    split
    · exact .self k
    · dsimp only
      split
      · split
        · exact (armEntry_rollKeeps _ _ _).trans (.of_eq rfl rfl)
        · exact .of_eq rfl rfl
      · exact .of_eq rfl rfl
  have ho : ∀ k : Node, RollKeeps k n →
      RollKeeps (if k.track.tracker = .track ∧ k.link.resume = none then openStart k x e else k) n := by
    intro k hk
    split
    · exact (openStart_rollKeeps k x e).trans hk
    · exact hk
  unfold rollReport
  split
  · dsimp only
    split
    · split
      · exact (ha _).trans (ho _ (.of_eq rfl rfl))
      · exact (ha _).trans (ho _ (.self n))
    · split
      · exact ho _ (.of_eq rfl rfl)
      · exact ho _ (.self n)
  · exact .self n

/-! ### The match report (R54) -/

/-- What a step of a match report keeps: everything outside `sansReport` (so the Repeat Track, the peers, the labels, the pins
and the node state), and the bound of the queue. -/
structure ReportKeeps (a b : Node) : Prop where
  view : sansReport a = sansReport b
  queue : QueueFits b → QueueFits a

theorem ReportKeeps.of_eq {a b : Node} (h : sansReport a = sansReport b) (hl : a.link = b.link) : ReportKeeps a b :=
  ⟨h, fun hq => by unfold QueueFits; rw [hl]; exact hq⟩

theorem ReportKeeps.trans {a b c : Node} (h1 : ReportKeeps a b) (h2 : ReportKeeps b c) : ReportKeeps a c :=
  ⟨h1.view.trans h2.view, fun hq => h1.queue (h2.queue hq)⟩

theorem ReportKeeps.self (n : Node) : ReportKeeps n n := ⟨rfl, fun h => h⟩

theorem ReportKeeps.track {a b : Node} (h : ReportKeeps a b) : a.track = b.track := by
  have h2 := congrArg Node.track h.view
  exact h2

theorem closeWindow_reportKeeps (n : Node) : ReportKeeps (closeWindow n) n := by
  have h := congrArg sansReport (closeWindow_sansMarks n)
  exact ⟨h, closeWindow_queue n⟩

theorem openWindow_reportKeeps (n : Node) (x : Nat) (e : Pos) (sy tr : Bool) : ReportKeeps (openWindow n x e sy tr) n := by
  have h := congrArg sansReport (openWindow_sansMarks n x e sy tr)
  exact ⟨h, openWindow_queue n x e sy tr⟩

theorem nipReport_reportKeeps (n : Node) (x : Nat) (e : Pos) (real sw : Bool) (s : Option Nat) (m : Bool) :
    ReportKeeps (nipReport n x e real sw s m) n := by
  have h := congrArg sansReport (nipReport_sansNip n x e real sw s m)
  have hl := congrArg Node.link (nipReport_sansNip n x e real sw s m)
  exact .of_eq h hl

theorem shadeReport_reportKeeps (n : Node) (x : Nat) (sw : Option Nat) : ReportKeeps (shadeReport n x sw) n := by
  have h := congrArg sansReport (shadeReport_shadeKeeps n x sw).view
  exact ⟨h, (shadeReport_shadeKeeps n x sw).queue⟩

theorem rollReport_reportKeeps (n : Node) (x : Nat) (e : Pos) (real : Bool) (sw : Option Nat) :
    ReportKeeps (rollReport n x e real sw) n := by
  have h := congrArg sansReport (rollReport_rollKeeps n x e real sw).view
  exact ⟨h, (rollReport_rollKeeps n x e real sw).queue⟩

theorem testSwitch_reportKeeps (n : Node) (j : Option JobRecord) (x : Nat) : ReportKeeps (testSwitch n j x).1 n := by
  unfold testSwitch
  split
  · exact .self n
  · split
    · split <;> exact .of_eq rfl rfl
    · exact .self n

theorem boundary_reportKeeps (n : Node) (e : Pos) (t : Nat) (c : Bool) : ReportKeeps (boundary n e t c) n := by
  rw [boundary_eq]
  exact .of_eq rfl rfl

theorem travelForget_reportKeeps (n : Node) : ReportKeeps (travelForget n) n := .of_eq rfl rfl

theorem holdSettle_reportKeeps (n : Node) : ReportKeeps (holdSettle n) n := by
  have h := congrArg sansReport (sansHold_holdSettle n)
  exact ⟨h, holdSettle_queue n⟩

theorem travelReport_reportKeeps (n : Node) (r : MatchReport) (f : Bool) : ReportKeeps (travelReport n r f) n := by
  have hb : ReportKeeps (if r.real then boundary n r.edge r.time r.wasTrack else travelForget n) n := by
    split
    · exact boundary_reportKeeps n _ _ _
    · exact travelForget_reportKeeps n
  unfold travelReport
  dsimp only
  split
  · exact (travelForget_reportKeeps _).trans ((holdSettle_reportKeeps _).trans hb)
  · exact hb

theorem reportLength_reportKeeps (n : Node) (x : Nat) : ReportKeeps (reportLength n x) n := by
  unfold reportLength
  split
  · unfold lengthCheck
    dsimp only
    split <;> exact .of_eq rfl rfl
  · exact .self n

theorem loopToOpen_reportKeeps (n : Node) : ReportKeeps (loopToOpen n) n := by
  unfold loopToOpen
  split
  · exact .self n
  · exact .of_eq rfl rfl

theorem settleReport_reportKeeps (n : Node) : ReportKeeps (settleReport n) n := .of_eq rfl rfl

theorem holdLoop_reportKeeps (n : Node) : ReportKeeps (holdLoop n) n := by
  unfold holdLoop
  split
  · exact loopToOpen_reportKeeps n
  · exact .self n

/-- What follows the switch and the move of R62 in a match report. -/
def reportRest (n2 : Node) (r : MatchReport) (falls made : Bool) : Node :=
  let n3 := reportLength (travelReport n2 r falls) r.number
  let n5 := reportOpen (settleReport (closeWindow (holdLoop (if made ∨ falls then loopToOpen n3 else n3)))) r
  let n6 := nipReport n5 r.number r.edge r.real made (spliceOf n5 r.number) (r.missed.any fun x => x.splice.isSome)
  let n7 := shadeReport n6 r.number (switchedFirst n6 made)
  rollReport n7 r.number r.edge r.real (switchedFirst n7 made)

theorem reportRest_reportKeeps (n2 : Node) (r : MatchReport) (falls made : Bool) :
    ReportKeeps (reportRest n2 r falls made) n2 := by
  unfold reportRest
  dsimp only
  refine (rollReport_reportKeeps _ _ _ _ _).trans ((shadeReport_reportKeeps _ _ _).trans
    ((nipReport_reportKeeps _ _ _ _ _ _ _).trans ((openWindow_reportKeeps _ _ _ _ _).trans
      ((settleReport_reportKeeps _).trans ((closeWindow_reportKeeps _).trans ((holdLoop_reportKeeps _).trans ?_))))))
  have h := (reportLength_reportKeeps (travelReport n2 r falls) r.number).trans (travelReport_reportKeeps n2 r falls)
  split
  · exact (loopToOpen_reportKeeps _).trans h
  · exact h

theorem matchReport_eq (n : Node) (r : MatchReport) :
    matchReport n r =
      reportRest (if reportFalls n r then fallen (reportSwitch n r).1 else (reportSwitch n r).1) r (reportFalls n r)
        (reportSwitch n r).2 := rfl

theorem reportSwitch_reportKeeps (n : Node) (r : MatchReport) : ReportKeeps (reportSwitch n r).1 n :=
  testSwitch_reportKeeps _ _ _

theorem fallen_reportKeeps {a b : Node} (h : ReportKeeps a b) : ReportKeeps (fallen a) (fallen b) := by
  have hv := congrArg (fun x => sansReport (fallen x)) h.view
  exact ⟨hv, h.queue⟩

/-- R54: a match report keeps everything outside `sansReport`, or, where R62 moves the tracker, everything but the
tracker's own fields. -/
theorem matchReport_reportKeeps (n : Node) (r : MatchReport) :
    ReportKeeps (matchReport n r) (if reportFalls n r then fallen n else n) := by
  rw [matchReport_eq]
  refine (reportRest_reportKeeps _ r _ _).trans ?_
  split
  · exact fallen_reportKeeps (reportSwitch_reportKeeps n r)
  · exact reportSwitch_reportKeeps n r

theorem matchReport_queue (n : Node) (r : MatchReport) (h : QueueFits n) : QueueFits (matchReport n r) := by
  apply (matchReport_reportKeeps n r).queue
  split <;> exact h

/-- A match report leaves the repeat table and the here pointer as its match set them. -/
theorem matchReport_table (n : Node) (r : MatchReport) :
    (matchReport n r).track.table = n.track.table ∧ (matchReport n r).track.here = n.track.here := by
  rw [(matchReport_reportKeeps n r).track]
  split <;> exact ⟨rfl, rfl⟩

/-! ### The idle gap -/

/-- The end of a request writes the port and nothing else. -/
theorem endRequest_eq (n : Node) (x : SlotState) : endRequest n x = { n with port := (endRequest n x).port } := by
  unfold endRequest; split <;> rfl

@[simp] theorem endRequest_link (n : Node) (x : SlotState) : (endRequest n x).link = n.link := by
  rw [endRequest_eq]
/-- R22, R169: with no own frame on the line, clearing the queue filters it and may end the request that leaves; it writes
nothing else but the attempt count. -/
theorem clearQueue_idle (n : Node) (h : n.link.sending = false) :
    clearQueue n = { n with link := (clearQueue n).link, port := (clearQueue n).port } ∧
    (clearQueue n).link = { n.link with queue := n.link.queue.filter (staysQueued n), attempts := (clearQueue n).link.attempts } := by
  unfold clearQueue
  rw [if_neg (by rw [h]; decide)]
  dsimp only
  split
  · rw [endRequest_link]
    exact ⟨by rw [endRequest_eq], rfl⟩
  · exact ⟨rfl, rfl⟩

theorem clearQueue_sending (n : Node) (h : n.link.sending = true) : clearQueue n = n := by
  unfold clearQueue; simp [h]

/-- A queue with nothing to clear stands. -/
theorem clearQueue_stays (n : Node) (h : ∀ e ∈ n.link.queue, staysQueued n e = true) : clearQueue n = n := by
  unfold clearQueue
  rw [List.filter_eq_self.2 h]
  simp

theorem staysQueued_iff (n : Node) (e : QEntry) : staysQueued n e = true ↔
    abandonedRoll n.roll.awaiting e = false ∧ (n.st = .benched → benchedKind e.telegram = true) := by
  unfold staysQueued
  by_cases hb : n.st = .benched <;> simp [hb]

theorem abandonedRoll_iff (kept : List RollContent) (e : QEntry) : abandonedRoll kept e = true ↔
      e.offerBy = .roll ∧ ∃ c, e.telegram = .roll c ∧ ∀ k ∈ kept, k.number ≠ c.number := by
  unfold abandonedRoll
  split
  · next c h1 h2 => simp [h1, h2]
  · next h =>
    constructor
    · intro h; cases h
    · rintro ⟨h1, c, h2, -⟩; exact absurd h2 (h c h1)


theorem clearQueue_length (n : Node) : (clearQueue n).link.queue.length ≤ n.link.queue.length := by
  by_cases h : n.link.sending = true
  · exact Nat.le_of_eq (congrArg (fun m : Node => m.link.queue.length) (clearQueue_sending n h))
  · rw [(clearQueue_idle n (by simpa using h)).2]
    exact List.length_filter_le _ _

/-! ### Waiting regrades (R161) -/

@[simp] theorem joinChange_late (a b : RollChange) : (joinChange a b).late = (a.late || b.late) := rfl

/-- With no regrade waiting a change stands alone. -/
theorem pendingChange_empty (n : Node) (x : Nat) (ch : RollChange) (hq : n.link.queue = []) (hr : n.link.refusedOffers = []) :
    pendingChange n x ch = ch := by
  unfold pendingChange
  rw [hq, hr]
  rfl

/-! ### Completed frames -/

/-- The completion of the frame that the node sends: the own telegram is taken, and the Hold Unit settles. -/
theorem completeFrame_own (n : Node) (o : Origin) (t : Telegram) (e : QEntry) (rest : List QEntry) (hw : tracksW n = true)
    (hl : n.st ≠ .listening) (hq : n.link.queue = e :: rest) (ho : isOwnFrame n o t = true) :
    completeFrame o t n =
      holdSettle (clearFrame (completeOwn (hearEnd { n with link := { n.link with w := o.sender } }) o t e)) := by
  unfold completeFrame
  rw [if_pos hw, ho, hq]
  dsimp only
  rw [if_neg hl]

/-- An own telegram other than JOIN and DOWN, with no refused offer waiting: it is counted and applied, and its offer ends. -/
theorem completeOwn_plain (n : Node) (o : Origin) (t : Telegram) (e : QEntry) (ha : appliesFrames n = true)
    (hj : isJoin t = false) (hd : isDown t = false) (hr : n.link.refusedOffers = []) :
    completeOwn n o t e =
      offerCompleted
        (applyFrame (countCompleted (ownCompletes n)) o true (match e.offerBy with | .regrade _ => true | _ => false) t) e := by
  have h : appliesFrames (countCompleted (ownCompletes n)) = true := by
    unfold countCompleted
    split <;> exact ha
  unfold completeOwn
  dsimp only
  rw [hj, hd, hr]
  simp only [Bool.false_eq_true, if_false]
  rw [if_pos h]
  rfl

/-- A frame of another station leaves a LISTENING node as it is but for its end. -/
theorem completeOther_listening (n : Node) (o : Origin) (t : Telegram) (h : n.st = .listening)
    (ho : o.sender ≠ (cfg n).station) : completeOther n o t = n := by
  have ha : appliesFrames n = false := by simp [appliesFrames, h]
  unfold completeOther countCompleted countVoidRun clashSecond muteVoiding goodFrame
  simp [ha, ho, h]

/-- R149: two statements are the same when they are equal, or CLEARs with one repeat. -/
theorem sameStatement_iff (w s : Statement) :
    sameStatement w s = true ↔ w = s ∨ ∃ m a b, w = .clear m a ∧ s = .clear m b := by
  cases w with
  | set x c =>
    cases s <;> simp [sameStatement]
  | clear x c =>
    cases s with
    | set y d => simp [sameStatement]
    | clear y d =>
      constructor
      · intro h
        have e : x = y := by simpa [sameStatement] using h
        exact .inr ⟨x, c, d, rfl, by rw [e]⟩
      · rintro (h | ⟨m, a, b, h1, h2⟩)
        · cases h; simp [sameStatement]
        · cases h1; cases h2; simp [sameStatement]

/-! ### The drift run (R131) -/

/-- An in repeat ends the drift run and leaves the rest. -/
theorem driftStep_in (k : Nat) (u : BatchUnit) (b : OwnBatch) (x : Nat) (m : Triple)
    (h : differs b.tolerance m b.reference = false) :
    driftStep k u b x m = { u with driftRun := 0, driftFirst := none } := by
  unfold driftStep
  rw [h]
  rfl

/-- An out repeat lengthens the drift run; the run that reaches K is counted. -/
theorem driftStep_out (k : Nat) (u : BatchUnit) (b : OwnBatch) (x : Nat) (m : Triple)
    (h : differs b.tolerance m b.reference = true) :
    driftStep k u b x m =
      { u with driftRun := u.driftRun + 1, driftFirst := if u.driftRun = 0 then some x else u.driftFirst,
               driftReached := if u.driftRun + 1 = k then u.driftReached + 1 else u.driftReached } := by
  unfold driftStep
  rw [if_pos h]

end Sys2Proof.Laws
end

