-- ==== Sys2Proof/Tests/Slice0.lean ====
section
/-! SUPPORT. Tests of the model's own: ill-formed commands that the check refuses, the manual's examples in small, and for
each statement concrete states that meet the hypotheses of each of its clauses. -/

namespace Sys2Proof.Tests

open Sys2Proof.Machine Sys2Proof.Claims

/-! ### Well-formedness: each check refuses an ill-formed command -/

def o7 : Origin := { sender := 7, restate := false }
def jobP (number : Nat) : JobPayload := { number := number, pattern := 1, first := 1, requester := 3 }
def t0 : Triple := { lightness := 0, redGreen := 0, yellowBlue := 0 }
def tBad : Triple := { lightness := 32768, redGreen := 0, yellowBlue := 0 }
def rollP (number : Nat) : RollContent :=
  { number := number, kind := .roll, first := 10, count := 5, batch := 1, job := 1, grade := .first, causes := 0,
    holdCauses := 0, length := 30000 }

theorem test_wf_station_refused : (Instr.frameVoided 32).wf = false := by decide
theorem test_wf_station_zero_refused : (Instr.peerSilenceW 0).wf = false := by decide
theorem test_wf_sender_refused : (Instr.present { sender := 0, restate := false }).wf = false := by decide
theorem test_wf_occasion_refused : (Instr.rejoin (.frameVoided 32)).wf = false := by decide
theorem test_wf_occasion_telegram_refused : (Instr.rejoin (.completed o7 (.undefined { kind := 16, number := 0 }))).wf = false := by decide
theorem test_wf_codes_refused :
    (Instr.shadeSample { l0 := 4096, l1 := 0, l2 := 0, r0 := 0, r1 := 0, r2 := 0 }).wf = false := by decide
theorem test_wf_join_slot_refused :
    (Instr.join o7 { role := .key, slot := 256, cause := .power, signature := 0 }).wf = false := by decide
theorem test_wf_join_signature_refused :
    (Instr.join o7 { role := .key, slot := 0, cause := .power, signature := 65536 }).wf = false := by decide
theorem test_wf_resume_repeat_refused :
    (Instr.resume o7 { role := .key, slot := 0, newestRepeat := 16777216, newestRoll := 0, newestBatch := 0, job := none }).wf
      = false := by decide
theorem test_wf_resume_job_refused :
    (Instr.resume o7 { role := .key, slot := 0, newestRepeat := 0, newestRoll := 0, newestBatch := 0,
                       job := some { number := 65536, pattern := 1, first := 1 } }).wf = false := by decide
theorem test_wf_request_refused : (Instr.requestNewJob o7 256).wf = false := by decide
theorem test_wf_job_taken_refused : (Instr.jobTaken o7 (jobP 65536)).wf = false := by decide
theorem test_wf_job_refused_refused : (Instr.jobRefused o7 (jobP 65536)).wf = false := by decide
theorem test_wf_repeat_refused :
    (Instr.repeat_ o7 { number := 1, length := 65536, job := 1, splice := none }).wf = false := by decide
theorem test_wf_repeat_splice_refused :
    (Instr.repeat_ o7 { number := 1, length := 5300, job := 1, splice := some 65536 }).wf = false := by decide
theorem test_wf_register_steps_refused :
    (Instr.register o7 { number := 1, slot := 1, state := .locked, steps := 32768, error := none, nip := none }).wf = false := by
  decide
theorem test_wf_register_error_refused :
    (Instr.register o7 { number := 1, slot := 1, state := .locked, steps := 0, error := some (-32769), nip := none }).wf
      = false := by decide
theorem test_wf_register_nip_refused :
    (Instr.register o7 { number := 1, slot := 8, state := .locked, steps := 0, error := none,
                         nip := some (16777216, .full) }).wf = false := by decide
theorem test_wf_shade_triple_refused :
    (Instr.shade o7 { number := 1, grade := .ok, left := some tBad, right := none }).wf = false := by decide
theorem test_wf_batch_refused : (Instr.batchOpened o7 { code := 65536, first := 1, reason := .start }).wf = false := by decide
theorem test_wf_batch_reference_refused :
    (Instr.batchFixed o7 { code := 1, first := 1, reason := .start } tBad).wf = false := by decide
theorem test_wf_hold_causes_refused : (Instr.holdSet o7 1 1024).wf = false := by decide
theorem test_wf_hold_clear_refused : (Instr.holdClear o7 16777216 0).wf = false := by decide
theorem test_wf_roll_refused : (Instr.roll o7 (rollP 16777216)).wf = false := by decide
theorem test_wf_labelled_refused : (Instr.labelled o7 16777216 .labelled).wf = false := by decide
theorem test_wf_undefined_refused : (Instr.undefinedCodeTelegram o7 { kind := 16, number := 0 }).wf = false := by decide
theorem test_wf_undefined_number_refused :
    (Instr.undefinedCodeTelegram o7 { kind := 7, number := 16777216 }).wf = false := by decide
theorem test_wf_deadline_refused : (Instr.rollDeadline 16777216).wf = false := by decide
theorem test_wf_track_read_refused : (Instr.readTrack 16777216).wf = false := by decide
theorem test_wf_known_command_refused : (Instr.unknownCommand 16).wf = false := by decide
theorem test_wf_place_argument_refused : (Instr.placeHoldOn 256).wf = false := by decide
theorem test_wf_place_kind_refused : (Instr.placeInvalidRequestKind 4 0).wf = false := by decide
theorem test_wf_accepts :
    [Instr.frameVoided 31, .unknownCommand 9, .placeInvalidRequestKind 5 0, .roll o7 (rollP 4117),
     .shadeSample { l0 := 4095, l1 := 0, l2 := 0, r0 := 0, r1 := 0, r2 := 0 }].all Instr.wf = true := by decide

/-! ### States -/

def pat : Pattern :=
  { code := 38, nominal := 5300, windowMin := 5200, windowMax := 5400, colourCount := 6, matchType := .straight,
    colourOffsets := [400, 500, 600, 700, 800, 900, 1000], embossOffset := some 0, cutOffset := 0, minRoll := 100000,
    tolerance := { lightness := 50, redGreen := 50, yellowBlue := 50 }, edgeTolerance := 40 }

def config (r : Role) : Config :=
  { station := 12, role := r, colourSlot := match r with | .print => 2 | .emboss => 8 | _ => 0, patterns := [pat],
    keyToEye := 53000, printToEye := 10600 }

def job38 : JobRecord := { number := 7, pattern := 38, first := 1 }

def entryOf (r : Role) (slot : Nat) : Peer := { state := .present, role := some (r, slot), learnt := true }

/-- KEY 3, PRINT 5 with slot 2, EMBOSS 8, SHADE 9, REWIND 20 and LABEL 25 are known. -/
def peerTable : List Peer :=
  ((((((List.replicate 31 ({} : Peer)).set 2 (entryOf .key 0)).set 4 (entryOf .print 2)).set 7 (entryOf .emboss 8)).set 8
    (entryOf .shade 0)).set 19 (entryOf .rewind 0)).set 24 (entryOf .label 0)

def base (r : Role) : Node := { st := .joined, image := some (config r), peers := peerTable }

def at_ (r : Role) (f : Node → Node) : State := { node := f (base r), pending := [] }

def rec_ (x : Nat) : RepeatRecord := { number := x, length := 5300, job := 7, splice := none }

def from_ (k : Nat) : Origin := { sender := k, restate := false }

/-! ### The web: witnesses -/

/-- R1: the four steps of the forward order of A_LEADS. -/
theorem test_phase_order :
    aLeads { encA := false, encB := false } true false = true ∧ aLeads { encA := true, encB := false } true true = true ∧
    aLeads { encA := true, encB := true } false true = true ∧ aLeads { encA := false, encB := true } false false = true := by
  decide

theorem test_hyp_encoder :
    let s := at_ .print id
    Runs s (config .print) ∧ travelRole s.node = true ∧ 0 < (config .print).denominator ∧ s.node.travel.debt ≤ 16777215 ∧
      s.node.travel.remainder.natAbs < (config .print).denominator ∧ validCount s.node.pins true true = false ∧
      validCount s.node.pins true false = true ∧ forwardCount (config .print) s.node.pins true false = true ∧
      validCount s.node.pins false true = true ∧ forwardCount (config .print) s.node.pins false true = false := by
  decide

theorem test_hyp_web_reversed_rows :
    let s := at_ .print fun n => { n with travel := { n.travel with debt := 500 } }
    let e := at_ .print fun n => { n with travel := { n.travel with debt := 1, webReversed := true } }
    (s.node.travel.debt ≤ (config .print).backlash ∧ s.node.travel.webReversed = false ∧
      (config .print).backlash <
        s.node.travel.debt + (((config .print).numerator : Int) - s.node.travel.remainder).toNat / (config .print).denominator ∧
      (config .print).backlash < 16777215) ∧
    (e.node.travel.webReversed = true ∧ 0 < e.node.travel.debt ∧
      e.node.travel.debt ≤ (((config .print).numerator : Int) + e.node.travel.remainder).toNat / (config .print).denominator) := by
  decide

/-- Table 6: the 501st reverse tick makes WEB_REVERSED active, the one that pays the last debt ends it. -/
theorem test_reversal :
    (reverseTick (at_ .rewind fun n => { n with travel := { n.travel with debt := 500 } }).node).travel.webReversed = true ∧
    (reverseTick (at_ .rewind fun n => { n with travel := { n.travel with debt := 499 } }).node).travel.webReversed = false ∧
    (forwardTick (at_ .rewind fun n => { n with travel := { n.travel with debt := 1, webReversed := true } }).node).travel.webReversed
      = false := by decide

theorem test_hyp_web_reversed_ticks :
    (base .print).travel.debt < 16777215 ∧ (base .print).travel.debt = 0 ∧
    (let s := at_ .print fun n => { n with travel := { n.travel with debt := 16777215 } }
     16777215 ≤ s.node.travel.debt ∧ 0 < s.node.travel.debt) ∧
    (let d := at_ .print fun n => { n with st := .down, pins := { n.pins with supwarnQuiet := 100 } }
     d.node.st = .down ∧ d.node.pins.supwarn = false ∧ 100 ≤ d.node.pins.supwarnQuiet ∧ d.node.pins.resetLow = false) := by
  decide

theorem test_hyp_speed_interval :
    (at_ .key fun n => { n with travel := { n.travel with intervalLeft := 0, advances := 65536 } }).node.travel.intervalLeft = 0 := by
  decide

theorem test_hyp_speed_step :
    let n := at_ .key fun n => { n with now := 530, travel := { n.travel with position := 6300, lastBoundary := some (1000, 0), lastSpeed := some 90 },
                                        track := { n.track with running := true, prevIndex := some 1000, nextRepeat := some 51 } }
    n.node.travel.lastBoundary = some (1000, 0) ∧ 0 < n.node.now ∧ n.node.travel.lastSpeed = some 90 ∧
      isRole n.node .key = true ∧ 1250 ≤ (n.node.travel.position - 1000).toNat ∧ n.node.track.nextRepeat = some 51 ∧
      (base .key).travel.lastBoundary = none ∧ (base .key).travel.lastSpeed = none := by decide

/-- Table 6: 100 against a last speed of 90 is a step; at a boundary without a comparison the step ends. -/
theorem test_speed_step :
    let n : Node := { base .key with travel := { (base .key).travel with lastBoundary := some (1000, 0), lastSpeed := some 90, speedStep := true } }
    (boundary n 6300 530 true).travel.speedStep = true ∧ (boundary n 6300 530 false).travel.speedStep = false ∧
      (boundary n 6300 590 true).travel.speedStep = false := by decide

theorem test_hyp_standstill :
    let s := at_ .emboss fun n => { n with travel := { n.travel with standstill := some 0, motion := .moving },
                                           nip := { n.nip with state := .closed } }
    let p := at_ .print fun n => { n with travel := { n.travel with standstill := some 0 } }
    s.node.travel.standstill = some 0 ∧ isRole s.node .emboss = true ∧ s.node.travel.motion = .moving ∧
      p.node.travel.standstill = some 0 ∧ isRole p.node .emboss = false := by decide

/-! ### Marks: witnesses -/

def withMark (width : Nat) (inSpan : Bool) (n : Node) : Node :=
  { n with pins := { n.pins with eyeDark := true }, travel := { n.travel with position := 10000 },
           marks := { n.marks with mark := some { edge := 10000 - BitVec.ofNat 32 width, time := 5, inSpan := inSpan } } }

theorem test_hyp_eye_edges :
    eyeRole (base .print) = true ∧ (base .print).pins.eyeDark = false ∧ (base .print).travel.debt = 0 ∧
    (let s := at_ .print fun n => { n with travel := { n.travel with debt := 1 } }
     s.node.pins.eyeDark = false ∧ 0 < s.node.travel.debt) ∧
    (let s := at_ .print fun n => { n with pins := { n.pins with eyeDark := true } }
     s.node.pins.eyeDark = true ∧ s.node.marks.mark = none) ∧
    (let w := fun (k : Nat) => posDiff (withMark k false (base .print)).travel.position (10000 - BitVec.ofNat 32 k)
     ¬(40 ≤ w 30 ∧ w 30 ≤ 60) ∧ 15 ≤ w 30 ∧ w 30 ≤ 30 ∧ 15 ≤ w 15 ∧ ¬(40 ≤ w 39 ∧ w 39 ≤ 60) ∧ ¬(15 ≤ w 39 ∧ w 39 ≤ 30) ∧
       ¬(40 ≤ w 0 ∧ w 0 ≤ 60) ∧ ¬(15 ≤ w 0 ∧ w 0 ≤ 30) ∧ ¬(40 ≤ w 61 ∧ w 61 ≤ 60)) ∧
    (base .print).marks.window = none ∧ isRole (base .print) .print = true ∧ isRole (base .rewind) .print = false ∧
    eyeRole (base .rewind) = true := by decide

/-- A COLOUR mark of 20 ticks enters the history; one of 10 ticks is stray. -/
theorem test_marks :
    (markTrailingEdge (withMark 20 false (base .print))).marks.history = [{ edge := 9980, taken := false }] ∧
    (markTrailingEdge (withMark 10 false (base .print))).marks.stray = 1 := by decide

def openReg (best : Option Pos) (past : Nat) (n : Node) : Node :=
  { n with travel := { n.travel with position := 20000 + BitVec.ofNat 32 past },
           marks := { n.marks with window := some { number := 50, expected := 20000, best := best, synthesised := false, tracked := true } } }

theorem test_hyp_register_window :
    (let s := openReg (some 20003) 320 (base .print)
     s.marks.window = some { number := 50, expected := 20000, best := some 20003, synthesised := false, tracked := true } ∧
     (captureRange (cfg s) : Int) ≤ posDiff s.travel.position 20000) ∧
    (let s := openReg none 319 (base .print)
     posDiff s.travel.position 20000 < (captureRange (cfg s) : Int)) := by decide

theorem test_hyp_emboss_index :
    isRole (base .emboss) .emboss = true ∧ (base .emboss).marks.window = none ∧ (base .emboss).marks.indexes.length ≤ 4 ∧
      isRole (base .print) .emboss = false := by decide

def cells (c : Nat) : List Bool := bitsOf 8 c ++ [decide ((bitsOf 8 c).count true % 2 = 0)]

def withSpan (sp : TallySpan) (p : Pos) (n : Node) : Node :=
  { n with travel := { n.travel with position := p }, marks := { n.marks with span := some sp } }

def span38 : TallySpan := { edge := 1000, cells := cells 38, failed := false, stale := false }

theorem test_hyp_tally_span :
    spanOver (config .print) span38 1249 = false ∧ spanOver (config .print) span38 1250 = true ∧
      (withSpan span38 1250 (base .print)).marks.reads = [] := by decide

/-- Two agreeing reads make the observed tally valid. -/
theorem test_tally_read :
    (tallySpanEnd { withSpan span38 1250 (base .print) with
      marks := { (withSpan span38 1250 (base .print)).marks with reads := [some 38] } }).marks.observed = some 38 := by decide

/-- R78: a switch makes a running tally span stale, and leaves one that has not begun. -/
theorem test_switch_and_span :
    let n := fun (p : Pos) => makeSwitch { base .print with
      travel := { (base .print).travel with position := p },
      marks := { (base .print).marks with span := some { edge := 1000, cells := [], failed := false, stale := false } } } job38
    ((n 1010).marks.span.map (·.stale)) = some false ∧ ((n 3000).marks.span.map (·.stale)) = some true := by decide

theorem test_hyp_tally_suspension :
    let n := withSpan span38 1250 { base .print with job := { (base .print).job with suspension := 1, current := some job38 } }
    n.marks.span = some span38 ∧ span38.stale = false ∧ n.job.suspension = 1 ∧
      spanOver (cfg n) span38 n.travel.position = true := by decide

/-! ### Triggers: witnesses -/

theorem test_hyp_triggers :
    (at_ .rewind fun n => { n with trig := { n.trig with cut := some 0 } }).node.trig.cut = some 0 ∧
    (base .rewind).trig.cut ≠ some 0 ∧ passed (base .rewind).travel.position 0 = true ∧
    passed (base .rewind).travel.position 1 = false ∧ (base .rewind).trig.entries.length < 8 ∧
    (let e : TriggerEntry := { output := .cut, position := 100, tag := 9 }
     let n : Node := { base .rewind with trig := { entries := List.replicate 8 e } }
     (n.trig.entries.any fun x => decide (x.tag = 1)) = false ∧ 8 ≤ n.trig.entries.length ∧
       (n.trig.entries.any fun x => decide (x.tag = 9)) = true) := by decide

/-- A REWIND at position 100 with the open piece of repeat 50 and a CUT of tag 1 before repeat 60 due. -/
def cutDue (n : Node) : Node :=
  { n with
    travel := { n.travel with position := 100 },
    trig := { entries := [{ output := .cut, position := 100, tag := 1 }, { output := .cut, position := 101, tag := 2 }] },
    roll := { n.roll with
      piece := some { number := 4, kind := .roll, first := 50, opening := 40, job := 7, pattern := some 38, full := 19 },
      nextRoll := some 999999,
      plan := [{ cut := 60, reasons := { full := true }, kind := .roll, full := 19,
                 arming := some { tag := 1, knife := 100, job := 7, pattern := some 38 } }] } }

theorem test_hyp_firings :
    (FiresAlone (at_ .rewind cutDue) { output := .cut, position := 100, tag := 1 }) ∧
    ((at_ .rewind cutDue).node.roll.plan.find? (fun x => decide (x.arming.map (·.tag) = some 1))).isSome = true ∧
    (at_ .rewind cutDue).node.roll.nextRoll = some 999999 ∧
    (let s := fun (out : TriggerOutput) (tag : Nat) => at_ .emboss fun n => { n with trig := { entries := [{ output := out, position := 0, tag := tag }] } }
     FiresAlone (s .nipClose 1) { output := .nipClose, position := 0, tag := 1 } ∧
       FiresAlone (s .nipOpen 2) { output := .nipOpen, position := 0, tag := 2 } ∧
       FiresAlone (s .nipClose 3) { output := .nipClose, position := 0, tag := 3 }) ∧
    closeGate (base .emboss) = false ∧
    (let g : Node := { base .emboss with job := { (base .emboss).job with current := some job38 },
                                         loop := { (base .emboss).loop with state := .locked },
                                         travel := { (base .emboss).travel with motion := .moving } }
     closeGate g = true ∧ g.nip.state = .opened) := by
  refine ⟨⟨_, rfl, by decide, by decide⟩, by decide, by decide,
    ⟨⟨_, rfl, by decide, by decide⟩, ⟨_, rfl, by decide, by decide⟩, ⟨_, rfl, by decide, by decide⟩⟩, by decide, by decide⟩

/-- The CUT ends the piece of ten repeats and opens the next one. -/
theorem test_cut_firing :
    let u := (triggerFire (cutDue (base .rewind))).roll
    u.piece.map (·.first) = some 60 ∧ u.nextRoll = some 1 ∧ u.plan = [] ∧
      u.awaiting.map (fun c => (c.number, c.count, c.length)) = [(4, 10, 60)] := by decide

/-- Table 47: a WASTE piece, one too short, one held, one short of its full count, one FIRST. -/
theorem test_grades :
    let p : OpenPiece := { number := 4, kind := .roll, first := 50, opening := 0, job := 7, pattern := some 38, full := 3, cutMoved := false }
    let n : Node := { base .rewind with image := some { config .rewind with patterns := [{ pat with colourCount := 1, embossOffset := none }] },
                                        peers := List.replicate 31 {} }
    let recs := [rec_ 50, rec_ 51, rec_ 52]
    gradePiece n { p with kind := .waste, start := true, batchLate := true } 3 recs = (.waste, 0x201, 0) ∧
    gradePiece n p 2 recs = (.waste, 2, 0) ∧ gradePiece n p 3 recs = (.first, 0, 0) ∧
    gradePiece n { p with full := 4 } 3 recs = (.short, 0, 0) ∧
    gradePiece n p 3 [rec_ 50, { rec_ 51 with heldBy := 1 }, rec_ 52] = (.hold, 4, 0) ∧
    (gradePiece (base .rewind) p 3 recs).1 = .hold := by decide

/-- Due entries leave in order, and a CUT starts the pulse. -/
theorem test_trigger_fire :
    (triggerFire { base .rewind with
      travel := { (base .rewind).travel with position := 100 },
      trig := { entries := [{ output := .cut, position := 99, tag := 1 }, { output := .cut, position := 101, tag := 2 }] } }).trig
      = { entries := [{ output := .cut, position := 101, tag := 2 }], cut := some 20 } := by decide

/-! ### The register loop and the nip: witnesses -/

theorem test_hyp_loop_runs :
    let c := config .print
    let s := at_ .print fun n => openReg (some 20160) 320 { n with
      track := { n.track with tracker := .track }, loop := { n.loop with openRun := 1 },
      job := { n.job with current := some job38 } }
    let e := posDiff (20160 : Pos) 20000
    Runs s c ∧ s.node.marks.window = some { number := 50, expected := 20000, best := some 20160, synthesised := false, tracked := true } ∧
      (captureRange c : Int) ≤ posDiff s.node.travel.position 20000 ∧ s.node.loop.state = .opened ∧ s.node.loop.openRun = 1 ∧
      s.node.track.tracker = .track ∧ loopHeld s.node = false ∧ 2 * e.natAbs ≤ captureRange c ∧
      (posDiff (20005 : Pos) 20000).natAbs ≤ c.lockWindow ∧ c.unlockWindow < (posDiff (20016 : Pos) 20000).natAbs := by
  decide

/-- The fourth small error locks the loop; the second large one unlocks it; the third absent result opens it. -/
theorem test_loop_rows :
    let n := fun (l : RegLoop) (b : Option Pos) => openReg b 320 { base .print with loop := l }
    (namedCase lockRunHit .registerWindowEnd (n { state := .capture, lockRun := 3 } (some 20005))).loop.state = .locked ∧
    (namedCase unlockRunHit .registerWindowEnd (n { state := .locked, unlockRun := 1 } (some 20016))).loop.state = .capture ∧
    (namedCase absentRunHit .registerWindowEnd (n { state := .far, absentRun := 2 } none)).loop.state = .opened := by
  decide

/-- R94: the capture gain of 8 sixteenths, the dead band in LOCKED, rounding away from zero, and the clamp. -/
theorem test_corrections :
    let c := config .print
    correctionSteps c .capture 15 = -8 ∧ correctionSteps c .locked 2 = 0 ∧ correctionSteps c .locked (-6) = 2 ∧
      correctionSteps c .capture 401 = -200 ∧ NearestWhole (-15 * 8 * 1000) 16000 (-8) := by
  refine ⟨by decide, by decide, by decide, by decide, ?_⟩
  simp only [NearestWhole]
  decide

theorem test_hyp_step_train :
    let t : StepTrain := { count := 3, number := 50, elapsed := 1 }
    trainDone (config .print) t = false ∧ trainDone (config .print) { t with elapsed := 2 } = true ∧
      settleLength { base .print with track := { (base .print).track with table := [rec_ 50] } } = some 5300 := by decide

def tracking (n : Node) : Node :=
  { n with travel := { n.travel with position := 6000 },
           track := { n.track with tracker := .track, predicted := some 5000, predLen := some 5300, here := some 50,
                                   table := [rec_ 50, rec_ 51] } }

theorem test_hyp_synthesised_reports :
    (let s := at_ .print fun n => { tracking n with loop := { (tracking n).loop with settle := 1 } }
     s.node.track.tracker = .track ∧ trackerWindowOver s.node = true ∧ oldestPending s.node = some (rec_ 51) ∧
       s.node.job.given = none ∧ s.node.marks.window = none ∧ s.node.loop.settle = 1) ∧
    (let s := at_ .shade fun n => { tracking n with
       shade := { (tracking n).shade with head := .measuring, due := 1999, window := some { number := 50, inSpan := false } } }
     isRole s.node .shade = true ∧ isJoined s.node = true ∧ trackerWindowOver s.node = true ∧
       oldestPending s.node = some (rec_ 51) ∧ s.node.shade.head = .measuring ∧ s.node.shade.run = none ∧
       s.node.shade.due + 1 = (cfg s.node).calibrationInterval) := by decide

/-- The pattern of a longer repeat, with no emboss offset, and a job of it. -/
def pat2 : Pattern := { pat with code := 39, nominal := 6400, embossOffset := none }
def job39 : JobRecord := { number := 8, pattern := 39, first := 51 }

def switching (extra : List Pattern) (n : Node) : Node :=
  { tracking n with
    image := n.image.map fun c => { c with patterns := pat :: extra },
    job := { (tracking n).job with current := some job38, given := some job39 } }

theorem test_hyp_switch :
    (let s := at_ .print (switching [pat2])
     trackerWindowOver s.node = true ∧ oldestPending s.node = some (rec_ 51) ∧ s.node.marks.window = none ∧
       s.node.track.missCount < 2 ∧ job38.number ≠ job39.number ∧ repeatAtOrAfter 51 job39.first = true ∧
       findPattern (cfg s.node) 38 = some pat ∧ findPattern (cfg s.node) 39 = some pat2 ∧
       100 * ((pat.nominal : Int) - pat2.nominal).natAbs > 5 * pat.nominal ∧
       ¬100 * ((pat.nominal : Int) - 5565).natAbs > 5 * pat.nominal ∧
       findPattern (cfg (switching [] (base .print))) 39 = none) ∧
    (let n := switching [pat2] { base .shade with batch := { (base .shade).batch with lastDecided := some 40, nextCode := some 39 } }
     n.shade.window = none ∧ n.batch.watch = none ∧ newer repeatRange 51 40 = true ∧ n.batch.nextCode = some 39) ∧
    (let pc : OpenPiece := { number := 1, kind := .roll, first := 40, opening := 0, job := 7, pattern := some 38, full := 19 }
     let n := switching [pat2] { base .rewind with roll := { (base .rewind).roll with piece := some pc } }
     n.roll.piece = some pc ∧ n.roll.plan = []) := by decide

/-- A synthesised mark at the first repeat of the new job makes the switch and moves the tracker to SEARCH. -/
theorem test_switch :
    let n := trackerWindowEnd (switching [pat2] (base .print))
    n.job.current = some job39 ∧ n.track.tracker = .search ∧ n.job.suspension = 2 ∧
      (trackerWindowEnd (switching [] (base .print))).job.unknownPart = true := by decide

theorem test_hyp_nip :
    (let s := fun (st : NipState) (w : Bool) => at_ .emboss fun n => { n with nip := { n.nip with state := st, actuation := some 0, waitingClose := w } }
     (s .closing false).node.nip.actuation = some 0 ∧ (s .opening true).node.nip.waitingClose = true ∧
       (s .opening false).node.nip.state = .opening) ∧
    (let sp : CoverageSpan := { number := 50, start := 100 }
     let nx : CoverageSpan := { number := 51, start := 200 }
     let n := fun (p : Pos) => { base .emboss with travel := { (base .emboss).travel with position := p },
                                                    nip := { (base .emboss).nip with spans := [sp, nx] } }
     passed (n 199).travel.position nx.start = false ∧ passed (n 200).travel.position nx.start = true ∧
       (n 200).nip.reports.length < 4) := by decide

/-! ### The repeat track: witnesses -/

def running (n : Node) : Node :=
  { n with travel := { n.travel with position := 6300 },
           track := { n.track with running := true, prevIndex := some 1000, nextRepeat := some 51 } }

theorem test_hyp_cylinder_index :
    let s := at_ .key running
    isRole s.node .key = true ∧ s.node.track.running = true ∧ s.node.track.prevIndex = some 1000 ∧
      s.node.track.nextRepeat = some 51 ∧ 1250 ≤ (s.node.travel.position - 1000).toNat ∧ isJoined s.node = true ∧
      downQueued s.node = false ∧ s.node.link.queue.length < 15 ∧ ((2249 : Pos) - 1000).toNat < 1250 ∧
      1250 ≤ ((2250 : Pos) - 1000).toNat ∧
      (at_ .key fun n => { n with track := { n.track with running := true } }).node.track.prevIndex = none := by decide

theorem test_hyp_length_runs :
    let s := at_ .key fun n => { running n with job := { n.job with current := some job38, given := some job38, outside := 3, inside := 3, lengthPart := true } }
    s.node.job.inOffer = none ∧ findPattern (cfg s.node) job38.pattern = some pat ∧
      (pat.windowMin ≤ min (s.node.travel.position - 1000).toNat 65535 ∧ min (s.node.travel.position - 1000).toNat 65535 ≤ pat.windowMax) ∧
      ¬(pat.windowMin ≤ min ((6200 : Pos) - 1001).toNat 65535 ∧ min ((6200 : Pos) - 1001).toNat 65535 ≤ pat.windowMax) ∧
      ¬(pat.windowMin ≤ min ((6401 : Pos) - 1000).toNat 65535 ∧ min ((6401 : Pos) - 1000).toNat 65535 ≤ pat.windowMax) := by decide

theorem test_hyp_splice :
    let s := fun (p : Pos) (l : List Pos) => at_ .key fun n => { n with travel := { n.travel with position := p }, track := { n.track with lastSplice := some 0, splices := l } }
    (isRole (s 1000 []).node .key = true ∧ (s 1000 []).node.st = .joined ∧ 1000 ≤ ((s 1000 []).node.travel.position - 0).toNat ∧
      (s 1000 [1, 2, 3]).node.track.splices.length < 4 ∧ 4 ≤ (s 1000 [1, 2, 3, 4]).node.track.splices.length ∧
      ((s 999 []).node.travel.position - 0).toNat < 1000) := by decide

/-- A KEY mark at position 9,000 of a node whose oldest pending record is 11 repeats behind the newest: depth 10. -/
def keyTable : List RepeatRecord := (List.range 11).map fun i => rec_ (51 + i)

def withKeyMark (st : TrackerState) (align : Nat) (predicted : Option Pos) (n : Node) : Node :=
  { withMark 50 false n with
    track := { n.track with tracker := st, alignCount := align, predicted := predicted, predLen := some 5300, here := some 50,
                            table := keyTable } }

theorem test_hyp_key_mark :
    let n := withKeyMark .search 0 none (base .print)
    let a := withKeyMark .align 3 (some 9950) (base .print)
    eyeRole n = true ∧ n.pins.eyeDark = true ∧ n.travel.debt = 0 ∧
      n.marks.mark = some { edge := 9950, time := 5, inSpan := false } ∧ posDiff n.travel.position 9950 = 50 ∧
      strayKeyMark n 9950 = false ∧ n.job.given = none ∧ n.track.table.getLast? = some (rec_ 61) ∧
      findMatch (isPending n) (expectedDepth (cfg n).keyToEye 5300) [] n.track.table = some (rec_ 51, [], 10) ∧
      strayKeyMark a 9950 = false ∧ a.track.tracker = .align ∧ a.track.alignCount = 3 ∧
      strayKeyMark (withKeyMark .track 4 (some 5000) (base .print)) 9950 = true ∧
      posDiff (withMark 40 false n).travel.position (10000 - 40) = 40 ∧
      posDiff (withMark 60 false n).travel.position (10000 - 60) = 60 := by decide

/-- The mark of depth 10 matches repeat 51 and moves the tracker to ALIGN. -/
theorem test_key_mark :
    let t := (markTrailingEdge (withKeyMark .search 0 none (base .print))).track
    t.here = some 51 ∧ t.tracker = .align ∧ t.alignCount = 1 ∧ t.predicted = some 15250 := by decide

def lostAt (p : Pos) (n : Node) : Node :=
  { n with travel := { n.travel with position := p },
           track := { n.track with tracker := .lost, lostStart := some 0, predLen := some 5300 } }

theorem test_hyp_tracker_window :
    (let s := fun (st : TrackerState) (k : Nat) => at_ .rewind fun n =>
       { tracking n with track := { (tracking n).track with tracker := st, missCount := k } }
     trackerWindowOver (s .align 0).node = true ∧ (s .align 0).node.track.predicted = some 5000 ∧
       oldestPending (s .track 1).node = some (rec_ 51) ∧ (s .track 1).node.track.missCount < 2 ∧
       (s .track 2).node.track.missCount = 2 ∧ (s .track 2).node.job.given = none) ∧
    (let s := fun (p : Pos) => at_ .rewind (lostAt p)
     ((2 * (s 10600).node.track.predLen.getD 0 : Nat) : Int) ≤ posDiff (s 10600).node.travel.position 0 ∧
       posDiff (s 10599).node.travel.position 0 < ((2 * (s 10599).node.track.predLen.getD 0 : Nat) : Int)) := by decide

/-! ### Shade, batches and holds: witnesses -/

theorem test_hyp_shade_sample :
    let s := at_ .shade fun n => { n with shade := { n.shade with samplesDue := 1, window := some { number := 50, inSpan := false } } }
    isRole s.node .shade = true ∧ isJoined s.node = true ∧ 0 < s.node.shade.samplesDue ∧ s.node.shade.run = none ∧
      s.node.shade.window.isSome = true ∧ s.node.shade.channels = [{}, {}, {}, {}, {}, {}] ∧
      (base .shade).shade.window = none ∧ isRole (base .key) .shade = false := by decide

/-- A run that starts at 0 with L = 5300 has its tile half from 10,600 on: the sample of 10,600 enters the tiles, also when the
web has gone on to 10,609; that of 10,590 does not. -/
theorem test_tile_sample :
    let run : CalRun := { start := 0, length := 5300, tiles := [{}, {}, {}, {}, {}, {}] }
    let n := fun (p : Pos) => { base .shade with travel := { (base .shade).travel with position := p },
                                                 shade := { (base .shade).shade with run := some run, samplesDue := 1 } }
    let codes : ShadeCodes := { l0 := 1, l1 := 2, l2 := 3, r0 := 4, r1 := 5, r2 := 6 }
    let first := fun (m : Node) => m.shade.run.bind fun r => r.tiles.head?.map (·.sum)
    first (shadeSample codes (n 10609)) = some 1 ∧ first (shadeSample codes (n 10599)) = some 0 ∧
      first (shadeSample codes (n 21199)) = some 1 ∧ first (shadeSample codes (n 21200)) = some 0 := by decide

theorem test_hyp_calibration_end :
    let run : CalRun := { start := 0, length := 5300, tiles := [{ sum := 38000, count := 10 }, {}, {}, {}, {}, {}] }
    let n := fun (p : Pos) (r : CalRun) => { base .shade with travel := { (base .shade).travel with position := p }, shade := { (base .shade).shade with run := some r } }
    (n 21199 run).shade.run = some run ∧ posDiff (n 21199 run).travel.position run.start < ((4 * run.length : Nat) : Int) ∧
      ((4 * run.length : Nat) : Int) ≤ posDiff (n 21200 run).travel.position run.start ∧
      run.tiles.any (·.saturated) = false ∧ run.tiles[0]? = some { sum := 38000, count := 10 } ∧
      ({ run with tiles := [{ saturated := true }] } : CalRun).tiles.any (·.saturated) = true := by decide

def own38 (phase : BatchPhase) (count : Nat) : OwnBatch :=
  { code := 38, first := 60, reason := .start, phase := phase, sums := t0, count := count, reference := t0,
    tolerance := pat.tolerance }

theorem test_hyp_forming_and_drift :
    let n : Node := { base .shade with job := { (base .shade).job with current := some job38 },
                                       batch := { (base .shade).batch with own := some (own38 .forming 15) } }
    n.batch.own = some (own38 .forming 15) ∧ curPattern n = some pat ∧ isJoined n = true ∧ downQueued n = false ∧
      n.link.queue.length < 16 ∧ (own38 .forming 14).count < 15 ∧ n.batch.inOffer = 0 ∧ 0 < (cfg n).driftK ∧
      mayOffer n (.batchFixed { code := 38, first := 60, reason := .start } t0) = true ∧ n.batch.lastOpened = none ∧
      n.batch.lastOpened ≠ some 38 ∧ (own38 .fixed 16).phase = .fixed ∧ differs (own38 .fixed 16).tolerance { t0 with lightness := 50 } t0 = false ∧
      differs (own38 .fixed 16).tolerance { t0 with lightness := 51 } t0 = true := by decide

theorem test_hyp_openings_and_watch :
    let g : Graded := { number := 70, grade := .ok, mean := some { t0 with lightness := 51 } }
    let w : StepWatch := { before := t0, held := [g, g, g] }
    let n : Node := { base .shade with
      job := { (base .shade).job with current := some job38 }, shade := { (base .shade).shade with firstAfter := some 70 },
      batch := { (base .shade).batch with nextCode := some 39, lastDecided := some 60, watch := some w } }
    n.batch.nextCode = some 39 ∧ newer repeatRange 61 60 = true ∧ newer repeatRange 60 60 = false ∧ n.batch.watch = some w ∧
      curPattern n = some pat ∧ w.held.length = 3 ∧ differs pat.tolerance (meanOfFour (w.held ++ [g])) w.before = true ∧
      n.shade.firstAfter = some 70 ∧ newer repeatRange 70 60 = true ∧ ({ w with held := [g, g] } : StepWatch).held.length < 3 := by
  decide

/-- A synthesised mark of repeat 51 at a SHADE node closes the window of repeat 50, whose values are all 1.00. -/
def okWindow (u : BatchUnit) (n : Node) : Node :=
  { tracking n with
    job := { n.job with current := some job38 }, batch := u,
    shade := { n.shade with head := .measuring, window := some { number := 50, inSpan := false },
                            channels := List.replicate 6 { sum := 400, count := 10 } } }

def t1 : Triple := { lightness := 100, redGreen := 100, yellowBlue := 100 }

def drifting : BatchUnit :=
  { own := some (own38 .fixed 16), driftRun := 7, driftFirst := some 43, lastDecided := some 20, nextCode := some 39,
    lastOpened := some 38 }

def watching : StepWatch :=
  { before := t0, held := List.replicate 3 { number := 40, grade := .ok, mean := some t1 } }

theorem test_hyp_batch_limits :
    OkWindowEnds (at_ .shade (okWindow drifting)) t1 ∧
    OkWindowEnds (at_ .shade (okWindow { own := some (own38 .forming 15) })) t1 ∧
    OkWindowEnds (at_ .shade (okWindow { watch := some watching })) t1 ∧
    curPattern (okWindow drifting (base .shade)) = some pat ∧
    differs (own38 .fixed 16).tolerance t1 (own38 .fixed 16).reference = true ∧
    drifting.driftRun + 1 = (cfg (base .shade)).driftK ∧ newer repeatRange 43 20 = true ∧ watching.held.length = 3 ∧
    (base .shade).shade.due + 1 < (cfg (base .shade)).calibrationInterval ∧ (base .shade).shade.fault = false := by
  refine ⟨?_, ?_, ?_, ?_⟩ <;> first | decide | (simp only [OkWindowEnds]; decide)

/-- The sixteenth mean fixes the batch, the eighth drifting repeat opens one, the fourth held repeat ends the watch. -/
theorem test_batch_limits :
    (namedCase formingHit .trackerWindowEnd (okWindow { own := some (own38 .forming 15) } (base .shade))).batch.own.map (·.phase)
      = some .fixed ∧
    (namedCase driftHit .trackerWindowEnd (okWindow drifting (base .shade))).batch.lastOpened = some 39 ∧
    (namedCase watchHit .trackerWindowEnd (okWindow { watch := some watching } (base .shade))).batch.watch = none := by decide

theorem test_hyp_operator_holds :
    let s := at_ .print id
    let masked := at_ .print fun n => { n with image := some { config .print with factorMask := 0x1FF } }
    let held := at_ .print fun n => { n with hold := { n.hold with operator := true, state := .held, seen := 0x200,
                                                                    own := some { first := 50, causes := 0x200 } } }
    (isJoined s.node = true ∧ holdRole s.node = true ∧ s.node.link.resume = none ∧ (from_ 3).sender ≠ (cfg s.node).station ∧
      s.node.link.drove = false ∧ s.node.link.sending = false ∧ (cfg s.node).factorMask.getLsbD 9 = true ∧
      s.node.hold.own = none ∧ s.node.hold.state = .clear ∧ s.node.hold.seen.getLsbD 9 = false) ∧
    (cfg masked.node).factorMask.getLsbD 9 = false ∧
    factorSet { held.node with travel := { held.node.travel with webReversed := true } } &&& 0x1DF ≠ 0 ∧
    (held.node.hold.own = some { first := 50, causes := 0x200 } ∧ held.node.hold.state ≠ .clear ∧
      factorSet held.node &&& 0x1FF = 0 ∧ held.node.link.queue.length < 16 ∧ downQueued held.node = false) := by decide

/-- HOLD_ON sets a hold for OPERATOR, and CLEAR_HOLD ends it. -/
theorem test_operator_hold :
    let n := completeFrame (from_ 3) (.request .holdOn 12) (base .print)
    n.hold.state = .held ∧ n.hold.own = some { first := 1, causes := 0x200 } ∧
      (completeFrame (from_ 3) (.request .clearHold 12) n).hold.state = .clear := by decide

theorem test_hyp_quiet :
    let s := fun (m : ClearMode) (k : Nat) => at_ .key fun n =>
      { running n with image := some { config .key with clearMode := m },
                       hold := { n.hold with state := .quieting, quiet := k, own := some { first := 40, causes := 1 } } }
    QuietIssue (s .quiet 3) 51 { first := 40, causes := 1 } ∧ QuietIssue (s .quietAtRoll 3) 51 { first := 40, causes := 1 } ∧
      (s .quiet 3).node.hold.quiet + 1 = (cfg (s .quiet 3).node).quietQ ∧
      (s .quiet 2).node.hold.quiet + 1 < (cfg (s .quiet 2).node).quietQ ∧ (cfg (s .quiet 3).node).clearMode = .quiet ∧
      (cfg (s .quietAtRoll 3).node).clearMode = .quietAtRoll := by
  refine ⟨⟨by decide, by decide, by decide, by decide, ⟨1000, by decide, by decide⟩, ?_⟩,
    ⟨by decide, by decide, by decide, by decide, ⟨1000, by decide, by decide⟩, ?_⟩, ?_⟩ <;> decide

def heldNode (st : HoldState) (f : Node → Node) : Node :=
  f { base .print with hold := { (base .print).hold with state := st, own := some { first := 40, causes := 1 }, target := some 45,
                                                         wanted := some (.set 40 1), lastDone := some (.set 40 1) } }

theorem test_hyp_hold_life :
    (let n := heldNode .quieting fun n => { n with travel := { n.travel with webReversed := true } }
     holdWorks n = true ∧ n.hold.state ≠ .clear ∧ n.hold.inOffer = none ∧ n.hold.waiting = false ∧ n.link.queue.length < 16 ∧
       downQueued n = false ∧ factorSet n &&& ~~~n.hold.seen = 8 ∧ (1 ||| 8 : CauseSet) ≠ 1 ∧
       n.hold.wanted ≠ some (.set 40 9)) ∧
    (let n := heldNode .held id
     factorSet n = 0 ∧ n.hold.state = .held ∧ (cfg n).clearMode ≠ .manual) ∧
    (let n := heldNode .waitingRoll id
     holdWorks n = true ∧ heldAs n 20 .rewind = true ∧ rollClashes n.roll.list (rollP 4117) = false ∧ factorSet n = 0 ∧
       n.hold.target = some 45 ∧ lastIn repeatRange 10 5 = 14 ∧ repeatAtOrAfter 14 14 = true ∧ repeatAtOrAfter 14 15 = false) := by
  decide

/-- A factor grows the hold; an empty set begins QUIETING; a roll at the target clears a waiting hold, an earlier one does not. -/
theorem test_hold_life :
    (holdSettle (heldNode .quieting fun n => { n with travel := { n.travel with webReversed := true } })).hold.own
      = some { first := 40, causes := 9 } ∧
    (holdSettle (heldNode .held id)).hold.state = .quieting ∧
    (let roll := fun (first : Nat) => completeFrame (from_ 20) (.roll { rollP 4117 with first := first }) (heldNode .waitingRoll id)
     (roll 41).hold.state = .clear ∧ (roll 41).hold.wanted = some (.clear 45 1) ∧ (roll 40).hold.state = .waitingRoll) := by
  decide

/-! ### The line link: witnesses -/

def presentEntry : QEntry := { telegram := .present, restate := false, offerBy := .plain }
def recordEntry : QEntry := { telegram := .holdSet 5 1, restate := false, offerBy := .plain }

def sendingWith (q : List QEntry) (n : Node) : Node := { n with link := { n.link with queue := q, sending := true } }

theorem test_hyp_slot_start :
    let s := fun (k : Nat) (q : List QEntry) => at_ .print fun n => { n with link := { n.link with slot := some k, queue := q } }
    tracksW (s 11 []).node = true ∧ (s 11 [presentEntry]).node.link.slot = some 11 ∧
      ((s 11 []).node.link.w + 12 - 1) % 31 + 1 = (cfg (s 11 []).node).station ∧
      ¬((s 31 []).node.link.w + 1 - 1) % 31 + 1 = (cfg (s 31 []).node).station ∧ (s 11 []).node.link.stuck = false ∧
      (base .print).link.slot = none ∧ sendsKind (base .print) presentEntry.telegram = true ∧
      sendsKind { base .print with st := .muted } presentEntry.telegram = false := by decide

/-- R21: in slot 12 after a reset the node of station 12 begins its frame. -/
theorem test_slot_start :
    (slotStart { base .print with link := { (base .print).link with slot := some 11, queue := [presentEntry] } }).link.sending = true := by
  decide

set_option maxRecDepth 20000 in
theorem test_hyp_frame_check :
    (base .print).link.sending = false ∧ tracksW (base .print) = true ∧ appliesFrames (base .print) = true ∧
      frameGood [] = false ∧ frameGood (stuff (frameFields 3 false .present)) = true ∧
      appliesFrames { base .print with st := .listening } = false ∧ tracksW { base .print with st := .listening } = true := by decide

theorem test_hyp_sent_frames :
    wfStation 31 = true ∧ (Telegram.repeat_ { number := 16777215, length := 65535, job := 65535, splice := some 65535 }).wf = true ∧
      ∀ p, Telegram.repeat_ { number := 16777215, length := 65535, job := 65535, splice := some 65535 } ≠ .undefined p := by
  refine ⟨by decide, by decide, ?_⟩
  intro p h
  cases h

set_option maxRecDepth 20000 in
/-- A frame with every optional part passes the checks as sent. -/
theorem test_sent_frame :
    frameGood (stuff (frameFields 12 false
      (.register { number := 5, slot := 8, state := .locked, steps := -3, error := some (-2), nip := some (4, .full) }))) = true := by
  decide

theorem test_hyp_attempts :
    let n := fun (e : QEntry) (k : Nat) => { sendingWith [e] (base .print) with link := { (sendingWith [e] (base .print)).link with attempts := k } }
    (n presentEntry 1).link.attempts < 2 ∧ downQueued (n presentEntry 1) = false ∧ (n presentEntry 2).link.attempts = 2 ∧
      presentEntry.telegram.routine = true ∧ recordEntry.telegram.routine = false ∧ (n recordEntry 2).st = .joined ∧
      (n recordEntry 2).link.sending = true := by decide

/-- A void of the third attempt drops a RECORD too, and makes the node the last sender. -/
theorem test_third_void :
    let n := { sendingWith [recordEntry] (base .label) with link := { (sendingWith [recordEntry] (base .label)).link with attempts := 2 } }
    (namedCase dropHit (.frameVoided 12) n).link.dropped = 1 ∧ (namedCase dropHit (.frameVoided 12) n).link.w = 12 := by decide

/-- The third ended attempt of a RECORD drops it and raises LINK_FAULT. -/
theorem test_third_attempt :
    let n := { sendingWith [recordEntry] (base .label) with link := { (sendingWith [recordEntry] (base .label)).link with attempts := 2 } }
    (namedCase dropHit .frameCutShort n).link.linkFault = true ∧ (namedCase dropHit .frameCutShort n).link.dropped = 1 := by decide

theorem test_hyp_voids_and_clashes :
    (let n := fun (k : Nat) => { base .print with link := { (base .print).link with drove := true, voidRun := k } }
     appliesFrames (n 14) = true ∧ (n 14).link.voidRun < 15 ∧ (n 15).link.voidRun = 15 ∧ downQueued (n 15) = false ∧
       (n 15).link.sending = false) ∧
    (let n := sendingWith [presentEntry] (base .print)
     n.link.sending = true ∧ downQueued n = false ∧ n.link.stopped = false) ∧
    (let n := sendingWith [presentEntry, { presentEntry with telegram := .down .supply }] (base .print)
     downQueued n = true ∧ n.link.stopped = false ∧ (mute n .clash).st = .down ∧ (mute n .clash).link.queue = []) := by decide

theorem test_hyp_stuck :
    tracksW (base .print) = true ∧ (base .print).link.stuck = false ∧ (base .print).link.sending = false ∧
      (base .print).st = .joined ∧ (base .print).link.drove = false := by decide

/-- While the line is stuck the node begins no frame in its own slot. -/
theorem test_stuck_slot :
    (slotStart { base .print with link := { (base .print).link with slot := some 11, queue := [presentEntry], stuck := true } }).link.sending
      = false := by decide

/-- A stuck line keeps the telegram of the frame in flight and its attempts. -/
theorem test_stuck :
    let n := lineStuck true (sendingWith [presentEntry] (base .print))
    n.link.stuck = true ∧ n.link.linkFault = true ∧ n.link.queue.head? = some presentEntry ∧ n.link.attempts = 0 ∧
      n.link.seenVoids = 1 ∧ n.st = .joined := by decide

/-- A REWIND node on an idle line whose queue holds the ROLL of piece 5, which is awaiting completion or abandoned. -/
def queuedRoll (kept : List RollContent) (st : NodeState) : Node :=
  { base .rewind with
    st := st,
    roll := { (base .rewind).roll with awaiting := kept },
    link := { (base .rewind).link with
      attempts := 1, queue := [{ telegram := .roll (rollP 5), restate := false, offerBy := .roll }, presentEntry] } }

/-- R22, R169: at the idle gap the ROLL of an abandoned piece leaves, and a kind that a BENCHED node does not send. -/
theorem test_idle_gap :
    (queuedRoll [] .joined).link.sending = false ∧ tracksW (queuedRoll [] .joined) = true ∧
      (lineIdle (queuedRoll [] .joined)).link.queue = [presentEntry] ∧ (lineIdle (queuedRoll [] .joined)).link.attempts = 0 ∧
      (lineIdle (queuedRoll [] .joined)).link.dropped = 0 ∧
      (lineIdle (queuedRoll [rollP 5] .joined)).link.queue = (queuedRoll [rollP 5] .joined).link.queue ∧
      (lineIdle (queuedRoll [rollP 5] .joined)).link.attempts = 1 ∧
      (lineIdle (queuedRoll [rollP 5] .benched)).link.queue = [presentEntry] := by decide

/-- Table 13, R32: a node that goes DOWN drives no void, and keeps the cause of a muting that DOWN follows at once. -/
theorem test_down_releases_the_line :
    let v : Node := { base .print with st := .benched, link := { (base .print).link with drove := true } }
    dominantBits v = 8 ∧ dominantBits (supplyWarning v) = 0 ∧ (supplyWarning v).st = .down ∧
      (mute (sendingWith [presentEntry, { presentEntry with telegram := .down .supply }] (base .print)) .clash).muteCause
        = some .clash := by decide

def mutedNode (run : Nat) : Node :=
  { base .print with st := .muted, muteCause := some .voiding, link := { (base .print).link with goodRun := run } }

theorem test_hyp_rejoin :
    (mutedNode 63).st = .muted ∧ (mutedNode 63).muteCause = some .voiding ∧ (mutedNode 63).link.goodRun = 63 ∧
      (mutedNode 63).link.faulty = false ∧ (mutedNode 63).link.sending = false ∧
      (from_ 3).sender ≠ (cfg (mutedNode 63)).station := by decide

/-- The 64th good frame makes the node rejoin; the 63rd does not. -/
theorem test_rejoin :
    (namedCase rejoinHit (.completed (from_ 3) .present) (mutedNode 63)).st = .listening ∧
      (completeFrame (from_ 3) .present (mutedNode 62)).st = .muted := by decide

theorem test_hyp_own_completions :
    let n := { sendingWith [presentEntry] (base .print) with
      link := { (sendingWith [presentEntry] (base .print)).link with linkFault := true, ownRun := 15 } }
    n.st = .joined ∧ n.link.sending = true ∧ n.link.queue = [presentEntry] ∧ n.link.refusedOffers = [] ∧
      n.link.linkFault = true ∧ n.link.ownRun = 15 := by decide

theorem test_hyp_send_and_listen :
    (let n := fun (e : Nat) (q : List QEntry) => { base .print with link := { (base .print).link with sendElapsed := some e, queue := q } }
     appliesFrames (n 200 []) = true ∧ (cfg (n 200 [])).silence ≤ 2 * 200 ∧ 2 * 199 < (cfg (n 199 [])).silence ∧
       presentQueued (n 200 []) = false ∧ presentQueued (n 200 [presentEntry]) = true ∧
       presentQueued (n 200 (List.replicate 16 recordEntry)) = false ∧
       16 ≤ (n 200 (List.replicate 16 recordEntry)).link.queue.length ∧ downQueued (n 200 []) = false) ∧
    (let n := fun (l : Option Nat) (heard : Bool) (ms : Nat) => { base .print with st := .listening, link := { (base .print).link with listen := l, heardEnd := heard, silentMs := ms } }
     (n (some 0) true 0).st = .listening ∧ (n (some 0) true 0).link.listen = some 0 ∧ (n none false 400).link.heardEnd = false ∧
       (cfg (n none false 400)).silence ≤ (n none false 400).link.silentMs ∧
       (n none false 0).link.sending = false ∧ (n none false 0).link.queue = [] ∧ (n (some 5) false 0).link.listen = some 5 ∧
       (from_ 3).sender ≠ (cfg (n none false 0)).station ∧ (frameCutShort (n none false 0)).st = .joining ∧
       (completeFrame (from_ 3) .present (n none false 0)).st = .joining ∧
       (completeFrame (from_ 3) (.roll (rollP 5)) (n none false 0)).st = .joining ∧ (frameVoided 3 (n (some 5) false 0)).st = .listening) := by
  decide

theorem test_hyp_resume_window :
    let n := fun (r : Role) => { base r with link := { (base r).link with resume := some 0 } }
    (n .key).link.resume = some 0 ∧ isJoined (n .key) = true ∧ isRole (n .key) .key = true ∧ (n .key).job.held = [] ∧
      isRole (n .shade) .shade = true ∧ (n .shade).batch.heldOpenings = [] ∧ isRole (n .rewind) .rewind = true := by decide

def heldAtKey (held : List HeldRequest) : Node :=
  { base .key with link := { (base .key).link with resume := some 0 }, job := { (base .key).job with held := held } }

theorem test_hyp_held_requests :
    let n := heldAtKey [.operator true, .operator false]
    n.link.resume = some 0 ∧ isJoined n = true ∧ isRole n .key = true ∧ n.link.queue.length < 12 ∧ downQueued n = false ∧
      (cfg n).factorMask.getLsbD 9 = true ∧ n.hold = {} ∧ factorSet n = 0 ∧
      (heldAtKey [.newJob { pattern := 38, station := 3 }]).job.inOffer = none ∧ findPattern (cfg n) 38 = some pat := by decide

/-- A held HOLD_ON and CLEAR_HOLD leave no hold and no refusal; a held NEW_JOB takes job 1. -/
theorem test_held_requests :
    let n := resumeWindowClose (heldAtKey [.operator true, .operator false])
    n.hold.state = .clear ∧ n.port.refusals = 0 ∧ n.hold.wanted = some (.clear 1 0x200) ∧
      (resumeWindowClose (heldAtKey [.newJob { pattern := 38, station := 3 }])).job.inOffer
        = some ({ number := 1, pattern := 38, first := 1 }, 3) := by decide

/-! ### Completed frames: witnesses -/

theorem test_hyp_hears : ∀ k ∈ [3, 5, 8, 9, 20, 25], HearsAnother (from_ k) (at_ .print id) := by decide

theorem test_hyp_join_and_resume :
    isJoined (base .print) = true ∧ (base .print).link.queue.length < 10 ∧ downQueued (base .print) = false ∧
    (∀ k, 1 ≤ k → k ≤ 31 → k ≠ 31 → ∀ q, (peerAt (base .print) k).role = some q → rolesConflict (.print, 1) q = false) ∧
    (base .print).link.resume = none := by
  refine ⟨by decide, by decide, by decide, ?_, by decide⟩
  intro k h1 h2 _ q hq
  have h : ∀ k ∈ stations, ∀ q ∈ (peerAt (base .print) k).role, rolesConflict (.print, 1) q = false := by decide
  have hk : k ∈ stations := by
    have : ∀ k : Fin 32, 1 ≤ k.val → k.val ∈ stations := by decide
    exact this ⟨k, by omega⟩ h1
  exact h k hk q hq

/-- The JOINED PRINT node, station 12 with slot 2, with its own entry written and no other known. -/
def ownKnown (q : List QEntry) (holds : List HoldEntry) : Node :=
  { base .print with
    peers := (List.replicate 31 ({} : Peer)).set 11 (entryOf .print 2),
    link := { (base .print).link with queue := q }, hold := { (base .print).hold with list := holds } }

def joinP (r : Role) (slot : Nat) : JoinPayload := { role := r, slot := slot, cause := .power, signature := 0 }

def resumeP (r : Role) (slot : Nat) : ResumePayload :=
  { role := r, slot := slot, newestRepeat := 0, newestRoll := 0, newestBatch := 0, job := none }

theorem test_hyp_conflict :
    let s : State := { node := ownKnown [] [], pending := [] }
    HearsAnother (from_ 20) s ∧ HearsAnother (from_ 5) s ∧ isJoined s.node = true ∧ s.node.link.queue.length < 10 ∧
      downQueued s.node = false ∧ (peerAt s.node 12).role = some (.print, 2) ∧ (peerAt s.node 12).learnt = true ∧
      (peerAt s.node 12).state ≠ .benched ∧ rolesConflict (.print, 2) (.print, 2) = true ∧ (cfg s.node).station = 12 ∧
      (stations.all fun j => decide (j = 12) || decide ((peerAt s.node j).role = none)) = true := by decide

/-- R194: the higher number is benched, at a JOIN and at a RESUME; a third station too. -/
theorem test_conflict :
    let hi := completeFrame (from_ 20) (.join (joinP .print 2))
      (ownKnown [] [{ station := 20, first := 50, last := none, causes := 1 }])
    let lo := completeFrame (from_ 5) (.join (joinP .print 2)) (ownKnown [presentEntry, recordEntry] [])
    let taught := completeFrame (from_ 5) (.resume (resumeP .print 2)) (ownKnown [] [])
    let third := completeFrame (from_ 4) (.join (joinP .key 0)) (base .print)
    hi.st = .joined ∧ (peerAt hi 20).state = .benched ∧ hi.hold.list.all (·.last.isSome) = true ∧
      lo.st = .benched ∧ lo.benchMark = true ∧ (peerAt lo 12).state = .benched ∧
      (lo.link.queue.all fun e => benchedKind e.telegram) = true ∧ lo.link.queue.length = 2 ∧
      taught.st = .benched ∧ (peerAt taught 5).role = some (.print, 2) ∧
      third.st = .joined ∧ (peerAt third 4).state = .benched ∧ (peerAt third 3).state = .present := by decide

/-- The SHADE node with its own batch 39 listed, of this state, and openings in offer. -/
def batchOwner (st : BatchState) (offers : Nat) : Node :=
  { base .shade with batch := { (base .shade).batch with
      own := some { code := 39, first := 60, reason := .drift, phase := .forming, sums := zeroTriple, count := 0,
                    reference := zeroTriple, tolerance := zeroTriple },
      inOffer := offers,
      list := [{ code := 39, first := 60, last := none, reference := some t0, state := st }] } }

/-- R36, R137, R149, R173: what a JOIN makes each owner restate, and that the hypotheses of the statement are met there. -/
theorem test_restates :
    let j := completeFrame (from_ 31) (.join (joinP .print 1))
    let held : Node := { base .print with hold := { (base .print).hold with
      own := some { first := 50, causes := 0x200 }, state := .held, operator := true } }
    let rolls : Node := { base .rewind with roll := { (base .rewind).roll with list := [rollP 4, rollP 5] } }
    (batchOwner .fixed 0).batch.list.getLast? = (batchOwner .fixed 0).batch.list.find? (fun x => decide (x.code = 39)) ∧
      isRole (batchOwner .fixed 0) .shade = true ∧ (batchOwner .fixed 0).link.restBatch.busy = false ∧
      isRole rolls .rewind = true ∧ rolls.link.restRoll.busy = false ∧ held.link.restHold.busy = false ∧
      (j (batchOwner .fixed 0)).link.queue.map (·.offerBy) = [.resume, .restateBatch] ∧
      (j (batchOwner .fixed 0)).link.restBatch = { items := [(39, true)], busy := true } ∧
      (j (batchOwner .forming 0)).link.restBatch = { items := [], busy := true } ∧
      (j (batchOwner .fixed 1)).link.queue.map (·.offerBy) = [.resume] ∧
      ((j held).link.queue.any fun e =>
        decide (e.telegram = .holdSet 50 0x200) && e.restate && decide (e.offerBy = .restateHold)) = true ∧
      (j rolls).link.restRoll = { items := [5], busy := true } ∧
      ((j rolls).link.queue.map (·.telegram)).getLast? = some (.roll (rollP 4)) := by decide

/-- The JOINED REWIND node with this plan and a piece of this kind open from repeat 60 on. -/
def splicing (here : Option Nat) (plan : List PlanEntry) (kind : Option PieceKind) : Node :=
  { base .rewind with
    track := { (base .rewind).track with here := here },
    roll := { (base .rewind).roll with
      plan := plan,
      piece := kind.map fun k =>
        ({ number := 5, kind := k, first := 60, opening := 0, job := 7, pattern := some 38, full := 19 } : OpenPiece) } }

def rollCut (x : Nat) : PlanEntry := { cut := x, reasons := { batch := true, full := true }, kind := .roll }

def eightCuts : List PlanEntry := (List.range 8).map fun i => rollCut (80 + i)

theorem test_hyp_splice_plan :
    HearsAnother (from_ 3) { node := splicing (some 65) eightCuts (some .roll), pending := [] } ∧
      heldAs (base .rewind) 3 .key = true ∧ repeatTooOld (base .rewind) 70 = false ∧ isRole (base .rewind) .rewind = true ∧
      subIn repeatRange 70 (cfg (base .rewind)).wasteBefore = 69 ∧ addIn repeatRange 70 (1 + (cfg (base .rewind)).wasteAfter) = 72 ∧
      repeatNewer 69 65 = true ∧ repeatNewer 69 69 = false ∧ succIn repeatRange 69 = 70 ∧ repeatNewer 69 72 = false ∧
      repeatNewer 70 69 = true ∧ repeatNewer 72 70 = true ∧ repeatNewer 69 60 = true ∧ repeatAtOrAfter 72 60 = true ∧
      eightCuts.length = 8 ∧ (eightCuts.all fun e => !repeatNewer 72 e.cut && decide (e.cut ≠ 69) && decide (e.cut ≠ 72)) = true := by
  decide

/-- R157: the waste run of a splice in repeat 70. -/
theorem test_splice_plan :
    let u := fun (here : Option Nat) (plan : List PlanEntry) (kind : Option PieceKind) =>
      (completeFrame (from_ 3) (.repeat_ { number := 70, length := 5300, job := 7, splice := some 100 }) (splicing here plan kind)).roll
    let shape := fun (u : RollUnit) => u.plan.map fun e => (e.cut, e.kind, e.reasons)
    shape (u (some 65) [] (some .roll)) = [(69, .waste, { splice := true }), (72, .roll, { splice := true })] ∧
      shape (u (some 69) [] none) = [(70, .waste, { splice := true }), (72, .roll, { splice := true })] ∧
      shape (u (some 65) [rollCut 69] (some .roll))
        = [(69, .waste, { splice := true, batch := true, full := true }), (72, .roll, { splice := true })] ∧
      shape (u (some 65) [rollCut 70] (some .roll))
        = [(69, .waste, { splice := true }), (72, .roll, { splice := true, batch := true })] ∧
      shape (u (some 65) [] (some .waste)) = [(72, .roll, { splice := true })] ∧
      (u (some 65) eightCuts (some .roll)).planRefusals = 1 ∧ (u (some 65) eightCuts (some .roll)).plan = eightCuts := by decide

/-- R161: a first regrade that is lost carries the second one's change too when it is offered again. -/
theorem test_regrades_meet :
    let late : RollChange := { late := true, batch := none }
    let coded : RollChange := { late := false, batch := some 40 }
    let n : Node := { base .rewind with
      roll := { (base .rewind).roll with list := [rollP 4] },
      link := { (base .rewind).link with queue := [{ telegram := .roll (rollP 4), restate := true, offerBy := .regrade coded }] } }
    pendingChange n 4 late = { late := true, batch := some 40 } ∧
      pendingChange n 4 { late := false, batch := some 39 } = coded ∧
      ((offerRegrade n 4 late).link.queue.getLast?.map (·.offerBy)) = some (.regrade { late := true, batch := some 40 }) := by
  decide

/-- R43: the stations with an OPEN hold stand in the held-by set of a new record. -/
theorem test_new_record :
    let n := ownKnown [] [{ station := 5, first := 50, last := none, causes := 1 }, { station := 6, first := 50, last := some 51, causes := 1 }]
    (n.hold.list.all fun h => decide (1 ≤ h.station)) = true ∧
      (newRecord n { number := 70, length := 5300, job := 7, splice := none }).heldBy = 0x10 := by decide

theorem test_hyp_job_and_records :
    heldAs (base .print) 3 .key = true ∧ newerThanGiven (base .print) 7 = true ∧ heldAs (base .print) 5 .key = false ∧
    repeatTooOld (base .print) 50 = false ∧ repeatTooOld (tracking (base .print)) 51 = true ∧
    heldAsSlot (base .print) 5 .print 2 = true ∧ heldAsSlot (base .print) 8 .emboss 8 = true ∧
    heldAs (base .print) 8 .emboss = true ∧ heldAs (base .print) 9 .shade = true ∧ heldAs (base .print) 3 .shade = false := by decide

/-- R195: a frame raises the last repeat heard of its sender only to a newer number. -/
theorem test_last_heard :
    let n := completeFrame (from_ 5) (.undefined { kind := 7, number := 60 }) (base .print)
    (peerAt n 5).lastRepeat = 60 ∧ (peerAt (completeFrame (from_ 5) (.undefined { kind := 8, number := 59 }) n) 5).lastRepeat = 60 ∧
      (peerAt (completeFrame (from_ 5) (.undefined { kind := 13, number := 61 }) n) 5).lastRepeat = 60 ∧
      HeardRepeat (from_ 5) 0 60 n := by
  refine ⟨by decide, by decide, by decide, ?_⟩
  simp only [HeardRepeat]
  decide

set_option maxRecDepth 20000 in
theorem test_hyp_eviction :
    let s := fun (r : Role) (here : Option Nat) => at_ r fun n =>
      { n with track := { n.track with here := here, table := rec_ 50 :: List.replicate 511 (rec_ 51) } }
    (s .print (some 49)).node.track.table.length = 512 ∧ repeatTooOld (s .print (some 49)).node 52 = false ∧
      isPending (s .print (some 49)).node (rec_ 50) = true ∧ isPending (s .print (some 50)).node (rec_ 50) = false ∧
      isPending (s .print none).node (rec_ 50) = true ∧ eyeRole (base .label) = false := by decide

theorem test_hyp_batches_and_holds :
    batchPresent (base .print) 38 = false ∧ batchTooOld (base .print) 60 = false ∧ (base .print).batch.list.length < 8 ∧
    holdSender (base .print) 5 = true ∧ (base .print).hold.list.length < 32 ∧ openHoldOf (base .print) 5 = none ∧
    (let h : HoldEntry := { station := 5, first := 50, last := none, causes := 1 }
     openHoldOf { base .print with hold := { (base .print).hold with list := [h] } } 5 = some h) := by decide

/-- A REWIND node at repeat 70, its open piece from 60 on, one listed roll of the repeats 40 to 49. -/
def rewinding (here : Option Nat) (kind : PieceKind) : Node :=
  { base .rewind with
    track := { (base .rewind).track with here := here },
    roll := { (base .rewind).roll with
      piece := some { number := 5, kind := kind, first := 60, opening := 0, job := 7, pattern := some 38, full := 19 },
      list := [{ rollP 4 with first := 40, count := 10 }] } }

theorem test_hyp_new_batches :
    let n := rewinding (some 70) .roll
    heldAs n 9 .shade = true ∧ batchPresent n 39 = false ∧ batchTooOld n 45 = false ∧ isRole n .rewind = true ∧ isJoined n = true ∧
      repeatNewer 71 70 = true ∧ repeatNewer 70 70 = false ∧ repeatNewer 61 60 = true ∧ repeatAtOrAfter 59 60 = false ∧
      repeatAtOrAfter 60 60 = true ∧ (rewinding (some 70) .waste).roll.piece.map (·.kind) = some .waste ∧
      repeatAtOrAfter (lastIn repeatRange 40 10) 49 = true ∧ n.link.queue = [] ∧ n.link.refusedOffers = [] := by decide

/-- R160, R161: a new batch ahead, inside the open piece, and inside the listed roll. -/
theorem test_new_batches :
    let open_ := fun (first : Nat) => (completeFrame (from_ 9) (.batchOpened { code := 39, first := first, reason := .drift }) (rewinding (some 70) .roll))
    (open_ 75).roll.plan.map (·.cut) = [75] ∧ (open_ 60).roll.plan = [] ∧ (open_ 65).roll.plan.map (·.cut) = [71] ∧
      (open_ 65).roll.piece.map (·.batchLate) = some true ∧
      (open_ 45).link.queue.map (·.telegram) = [.roll { rollP 4 with first := 40, count := 10, grade := .hold, causes := 0x200 }] ∧
      (open_ 39).roll.lateDecisions = 1 := by decide

def fullPlan : List PlanEntry := (List.range 8).map fun i => { cut := 80 + i, reasons := {}, kind := if i = 3 then .waste else .roll }

theorem test_hyp_plan :
    let u : RollUnit := { plan := fullPlan }
    insideWaste u 81 = false ∧ insideWaste { plan := [{ cut := 80, reasons := {}, kind := .waste }, { cut := 85, reasons := {}, kind := .roll }] } 82 = true ∧
      u.plan.length = 8 ∧ (u.plan.any fun e => decide (e.cut = 81)) = true ∧ (u.plan.any fun e => decide (e.cut = 79)) = false ∧
      (u.plan.find? fun e => repeatNewer e.cut 79).map (·.cut) = some 80 ∧ (u.plan.find? fun e => repeatNewer e.cut 88) = none := by
  decide

/-- R156: a full plan joins the next entry, or refuses; a FULL inside a waste run is dropped, another reason joins its end. -/
theorem test_plan :
    let w : RollUnit := { plan := [{ cut := 80, reasons := {}, kind := .waste }, { cut := 85, reasons := {}, kind := .roll }] }
    (placeCut { plan := fullPlan } 79 { job := true }).plan.head?.map (·.reasons) = some { job := true } ∧
      (placeCut { plan := fullPlan } 88 { job := true }).planRefusals = 1 ∧
      placeCut w 82 { full := true } = w ∧ ((placeCut w 82 { batch := true }).plan.map (·.reasons)) = [{}, { batch := true }] := by
  decide

theorem test_hyp_arming :
    (let n := { rewinding (some 70) .roll with job := { (base .rewind).job with current := some job38 } }
     curPattern n = some pat ∧ n.roll.piece.isSome = true ∧ repeatAtOrAfter 70 70 = true ∧ repeatAtOrAfter 70 69 = true ∧
       passed n.travel.position (movePos (movePos 5000 (cfg n).eyeToKnife) pat.cutOffset) = false ∧ n.trig.entries.length < 8) ∧
    (let n := { base .rewind with roll := { (base .rewind).roll with nextRoll := some 999999 },
                                  track := { (base .rewind).track with tracker := .track } }
     n.roll.piece = none ∧ n.roll.plan = [] ∧ n.link.resume = none) := by decide

/-- A due entry is armed at the report of a real mark, and FULL is planned 19 repeats on; a synthesised mark arms nothing. -/
theorem test_arming :
    let n := { rewinding (some 70) .roll with job := { (base .rewind).job with current := some job38 },
                                              roll := { (rewinding (some 70) .roll).roll with plan := [{ cut := 69, reasons := { batch := true }, kind := .roll }] } }
    (rollReport n 70 5000 true none).roll.plan.map (fun e => (e.cut, e.arming.isSome, e.moved, e.full)) = [(70, true, true, 19), (89, false, false, 0)] ∧
      (rollReport n 70 5000 true none).roll.cutsMoved = 1 ∧ rollReport n 70 5000 false none = n ∧
      (let m : Node := { n with roll := { nextRoll := some 6 }, track := { n.track with tracker := .track } }
       (rollReport m 70 5000 true none).roll = (rollReport m 70 5000 false none).roll ∧
         (rollReport m 70 5000 true none).roll.plan.map (·.cut) = [71]) := by decide

theorem test_hyp_rolls :
    isRole (base .print) .label = false ∧ heldAs (base .print) 20 .rewind = true ∧
    rollClashes (base .print).roll.list (rollP 4117) = false ∧ heldAs (base .print) 3 .rewind = false ∧
    isRole (base .label) .label = true ∧ heldAs (base .label) 20 .rewind = true ∧ inRollList (base .label) 4117 = false ∧
    (base .label).roll.list.length < 16 ∧
    heldAs (base .print) 25 .label = true ∧ heldAs (base .print) 3 .label = false ∧ (base .print).roll.departed.length < 16 := by
  decide

theorem test_hyp_requests :
    (let n := { running (base .key) with job := { (base .key).job with nextJob := some 8 } }
     isRole n .key = true ∧ isJoined n = true ∧ n.link.resume = none ∧ n.job.inOffer = none ∧ n.job.nextJob = some 8 ∧
       n.track.nextRepeat = some 51 ∧ findPattern (cfg n) 38 = some pat ∧ findPattern (cfg n) 39 = none) ∧
    isRole (base .print) .key = false ∧ (base .shade).batch.lastDecided = none ∧ (base .rewind).roll.piece = none ∧
    (let n := { base .shade with track := { (base .shade).track with here := some 60 },
                                 batch := { (base .shade).batch with lastDecided := some 60, nextCode := some 39 } }
     newer repeatRange (succIn repeatRange 60) 60 = true ∧ n.batch.watch = none ∧ n.batch.lastDecided = some 60) ∧
    (let p : OpenPiece := { number := 1, kind := .roll, first := 50, opening := 0, job := 7, pattern := some 38, full := 19 }
     let n := { base .rewind with track := { (base .rewind).track with here := some 60 }, roll := { (base .rewind).roll with piece := some p } }
     n.roll.piece = some p ∧ n.roll.plan = [] ∧ p.kind = .roll ∧ isJoined n = true ∧ n.link.resume = none) := by decide

/-! ### Peers, supply, resets and configuration: witnesses -/

def quietKey (st : PeerState) (ms : Nat) : Node :=
  { base .print with peers := peerTable.set 2 { entryOf .key 0 with state := st, silence := ms } }

theorem test_hyp_silence :
    appliesFrames (quietKey .present 400) = true ∧ wfStation 3 = true ∧ 3 ≠ (cfg (quietKey .present 400)).station ∧
    (quietKey .present 400).peers.length = 31 ∧ (peerAt (quietKey .present 400) 3).state = .present ∧
    (cfg (quietKey .present 400)).silence ≤ (peerAt (quietKey .present 400) 3).silence ∧
    2 * (cfg (quietKey .quiet 800)).silence ≤ (peerAt (quietKey .quiet 800) 3).silence ∧
    (peerAt (quietKey .present 399) 3).silence < (cfg (quietKey .present 399)).silence ∧
    eyeRole (quietKey .quiet 800) = true ∧ (peerAt (quietKey .quiet 800) 3).role = some (.key, 0) ∧
    (peerAt (quietKey .quiet 800) 3).learnt = true ∧ (peerAt (quietKey .quiet 800) 3).state = .quiet := by decide

theorem test_hyp_supply :
    (base .print).pins.supwarn = false ∧ (base .print).pins.resetLow = false ∧ (base .print).st = .joined ∧
    ({ base .print with st := .benched } : Node).st ≠ .joined ∧
    (let d : Node := { base .print with st := .down, pins := { (base .print).pins with supwarnQuiet := 100 } }
     d.st = .down ∧ d.pins.supwarn = false ∧ d.pins.resetLow = false ∧ 100 ≤ d.pins.supwarnQuiet) ∧
    (let d : Node := { base .print with pins := { (base .print).pins with supwarnQuiet := 99 } }
     d.pins.supwarnQuiet < 100) := by decide

theorem test_hyp_resets :
    State.reset.node.st = .loading ∧ State.reset.node.pins.resetLow = false ∧ State.reset.node.image = none ∧
    (let n : Node := { pins := { resetLow := true } }
     n.pins.resetLow = true ∧ n.pins.supwarn = false ∧ n.travel = {} ∧ n.marks = {} ∧ n.trig = {}) := by decide

def image16 (c : Config) : Image :=
  let body := ([0, 16] : List Byte) ++ List.replicate 12 (0 : Byte)
  { bytes := body ++ be2 (crc16 (bytesBits body)).toNat, fields := c, undefinedCodes := [], signatureBytes := [] }

set_option maxRecDepth 20000 in
theorem test_hyp_configuration :
    imageFault (image16 (config .key)) = none ∧ imageFault (image16 { config .key with station := 32 }) = some .range ∧
    imageFault { image16 (config .key) with bytes := [0, 15] } = some .noImage ∧
    checksumGood { image16 (config .key) with bytes := [0, 16, 1] } = false := by decide

/-- Each check of the fields refuses a value outside its range. -/
theorem test_fields :
    let good := fun (c : Config) => fieldsGood { image16 c with undefinedCodes := [] }
    good (config .print) = true ∧ good (config .emboss) = true ∧ good (config .shade) = true ∧ good (config .rewind) = true ∧
      good (config .label) = true ∧ good { config .key with silence := 99 } = false ∧
      good { config .print with colourSlot := 8 } = false ∧ good { config .key with patterns := [pat, pat] } = false ∧
      good { config .key with patterns := [{ pat with windowMax := 5299 }] } = false ∧
      good { config .print with lockWindow := 16 } = false ∧ good { config .emboss with actuationTime := 19 } = false ∧
      good { config .shade with driftK := 33 } = false ∧ good { config .rewind with wasteAfter := 5 } = false ∧
      good { config .key with quietQ := 0 } = false ∧ good { config .label with conveyorLimit := 601 } = false ∧
      fieldsGood { image16 (config .key) with undefinedCodes := [.role] } = false := by decide

/-! ### Labelling and the port: witnesses -/

def roll5004 : RollContent := { rollP 5004 with length := 101170, count := 19, batch := 38, job := 310, grade := .first }

def withRoll (c : RollContent) (n : Node) : Node :=
  { n with pins := { n.pins with arriveHigh := true }, roll := { n.roll with list := [c] },
           job := { n.job with history := [{ number := 310, pattern := 38, first := 1 }] },
           label := { n.label with debounce := some 0, disps := [(c.number, .waiting 1000)] } }

theorem test_hyp_arrivals :
    (let n := withRoll roll5004 (base .label)
     isRole n .label = true ∧ n.label.debounce = some 0 ∧ n.pins.arriveHigh = true ∧ n.label.present = false ∧ isJoined n = true ∧
       oldestWaiting n = some roll5004 ∧ rollPattern n roll5004.job = some pat ∧ n.label.printer = .idle ∧ n.label.queue = [] ∧
       oldestWaiting { n with label := { n.label with disps := [] } } = none ∧
       isJoined { n with st := .benched } = false) ∧
    (let n := withRoll { roll5004 with grade := .waste } (base .label)
     oldestWaiting n = some { roll5004 with grade := .waste } ∧ n.label.outcomes.length < 32) ∧
    (let n : Node := { base .label with label := { (base .label).label with debounce := some 0, present := true } }
     n.label.debounce = some 0 ∧ n.pins.arriveHigh = false ∧ n.label.present = true) := by decide

theorem test_hyp_arrival_rows :
    (let n := withRoll roll5004 { base .label with label := { (base .label).label with printer := .fault } }
     n.label.printer = .fault ∧ oldestWaiting n = some roll5004) ∧
    (let l : Label := { number := 1, block := [], gate := .pass }
     let n := withRoll roll5004 { base .label with label := { (base .label).label with printer := .printing, queue := [l, l] } }
     2 ≤ n.label.queue.length ∧ oldestWaiting n = some roll5004) ∧
    (let n := withRoll { roll5004 with grade := .hold } (base .label)
     oldestWaiting n = some { roll5004 with grade := .hold } ∧ n.label.printer = .idle ∧ n.label.queue = []) ∧
    rollPattern (base .label) 310 = none := by decide

/-- Rows 2, 4 and 6 of Table 51. -/
theorem test_arrival_rows :
    (let n := arrival (withRoll roll5004 { base .label with label := { (base .label).label with printer := .fault } })
     n.label.gate = .holdLane ∧ dispositionOf n 5004 = some (.decided .notLabelled) ∧ n.label.outcomes.length = 1) ∧
    (let n := arrival (withRoll { roll5004 with grade := .hold } (base .label))
     n.label.gate = .holdLane ∧ n.label.diverted = 1 ∧ dispositionOf n 5004 = some .labelling) ∧
    (let l : Label := { number := 1, block := [], gate := .pass }
     let s := withRoll roll5004 { base .label with label := { (base .label).label with printer := .printing, queue := [l] } }
     s.label.printer = .printing ∧ s.label.queue.length < 2 ∧ oldestWaiting s = some roll5004 ∧
       (rollPattern s roll5004.job).isSome = true ∧ (arrival s).label.gate = .pass ∧ (arrival s).label.diverted = 0 ∧
       (arrival s).label.queue.map (·.number) = [1, 5004] ∧ (arrival s).label.sending = none ∧
       (arrival s).label.printer = .printing) := by decide

/-- R182: the worked label of roll 5004: match letter S, grade letter A. -/
theorem test_label_block :
    labelBlock (withRoll roll5004 (base .label)) roll5004 false =
      [48, 48, 53, 48, 48, 52, 48, 48, 51, 56, 48, 51, 56, 48, 48, 51, 49, 48, 48, 49, 48, 49, 50, 48, 49, 57, 65, 83, 49] := by
  decide

/-- An arrival of a FIRST roll with a known pattern starts the print of its label. -/
theorem test_arrival :
    let n := arrival (withRoll roll5004 (base .label))
    n.label.gate = .pass ∧ n.label.printer = .printing ∧ (n.label.queue.map (·.number)) = [5004] := by decide

theorem test_hyp_prints :
    (let l : Label := { number := 5004, block := [], gate := .pass }
     let n : Node := { base .label with label := { (base .label).label with printer := .printing, seenLow := true, queue := [l] } }
     n.pins.readyHigh = false ∧ n.label.seenLow = true ∧ n.label.applyTimer = none ∧ n.label.abandoned = false ∧
       n.label.queue = [l] ∧ n.label.outcomes.length < 32) ∧
    (let n : Node := { base .label with label := { (base .label).label with applyTimer := some 0, readyTimer := some 0, printTimer := some 0 } }
     n.label.applyTimer = some 0 ∧ n.label.readyTimer = some 0 ∧ n.label.printTimer = some 0 ∧ n.label.queue = []) ∧
    (let n := withRoll roll5004 { base .label with now := 1000 }
     dispositionOf n 5004 = some (.waiting 1000) ∧ 1000 ≤ n.now ∧ dispositionOf n 1 = none ∧
       dispositionOf { n with label := { n.label with disps := [(5004, .decided .missing)] } } 5004 = some (.decided .missing) ∧
       ({ n with now := 999 } : Node).now < 1000) := by decide

def outcomeEntry (serial : Nat) : QEntry :=
  { telegram := .labelled 0 .unknownRoll, restate := false, offerBy := .labelled serial }

/-- Of two equal outcomes the completion of the second one's LABELLED takes off the second. -/
theorem test_equal_outcomes :
    let o := fun (k : Nat) => ({ number := 0, outcome := .unknownRoll, serial := k } : OutcomeEntry)
    let n := { sendingWith [outcomeEntry 4] (base .label) with label := { (base .label).label with outcomes := [o 3, o 4] } }
    n.st = .joined ∧ isRole n .label = true ∧ n.link.sending = true ∧ n.link.queue = [outcomeEntry 4] ∧ n.link.refusedOffers = [] ∧
      (completeFrame (from_ 12) (.labelled 0 .unknownRoll) n).label.outcomes = [o 3] := by decide

/-- Table 58: command bytes, and a TRACK read of repeat 66,051. -/
theorem test_host_commands :
    hostCommand [3, 1, 2, 3, 0] = some (.readTrack 66051) ∧ hostCommand [9] = some (.unknownCommand 9) ∧
      hostCommand [16, 5, 0] = some (.placeInvalidRequestKind 5 0) ∧ (0 : Byte) ∉ ([1, 2, 3, 4, 5, 6, 7, 8, 16] : List Byte) ∧
      clockedByte (placeRequest .holdOn 12 (base .print)) 0 = 1 ∧ clockedByte (placeRequest .holdOn 12 (base .print)) 3 = 0 ∧
      hostBits [false, false, false, true, false, false, false, false, false, false, false, false, false, false, true, true,
                false, false, false, false, true, true, false, false] = some (.placeHoldOn 12) := by decide

theorem test_hyp_port :
    notReady (base .print) = false ∧ notReady State.reset.node = true ∧ findRecord (tracking (base .print)) 50 = some (rec_ 50) ∧
    findRecord (base .print) 50 = none ∧ (Instr.unknownCommand 9).wf = true ∧ (Instr.placeInvalidRequestKind 255 0).wf = true ∧
    (base .print).port.slot ≠ .pending ∧ isJoined (base .print) = true ∧ (base .print).link.queue.length < 16 ∧
    notReady { base .print with st := .muted } = false := by decide

/-- HOLD_ON for station 12 is accepted, and a second placement finds the slot busy. -/
theorem test_placement :
    let n := placeRequest .holdOn 12 (base .print)
    n.port.out = [1, 0, 0] ∧ n.port.slot = .pending ∧ (placeRequest .newJob 38 n).port.out = [2, 0, 0] := by decide

/-! ### The bounds: witnesses -/

theorem test_hyp_bounds :
    queueBounded (sendingWith [presentEntry] (base .print)) ∧ travelBounded (base .print) ∧ noMarkInDebt (base .print) ∧
      peersComplete (base .print) ∧ tableBounded (tracking (base .print)) ∧ triggersBounded (base .rewind) ∧
      storesBounded (base .rewind) := by
  refine ⟨?_, ?_, ?_, ?_, ?_, ?_, ?_⟩ <;> simp only [queueBounded, travelBounded, noMarkInDebt, peersComplete, tableBounded,
    triggersBounded, storesBounded] <;> decide

/-! ### Own completions and a second station number: witnesses -/

/-- The JOINED node of this role, its own entry written, with this telegram of its own on the line. -/
def ownFrame (r : Role) (t : Telegram) (by_ : OfferBy) (f : Node → Node) : State :=
  at_ r fun n => f (sendingWith [{ telegram := t, restate := false, offerBy := by_ }, presentEntry]
    { n with peers := peerTable.set 11 (entryOf r (config r).colourSlot) })

/-- The command of each completing frame completes it. -/
theorem test_frame_commands (o : Origin) (t : Telegram) (s : State) : exec (frameOf o t) s = runNode (completeFrame o t) s := by
  cases t with
  | request k a => cases k <;> rfl
  | _ => rfl

/-- R72: the KEY's own JOB TAKEN. -/
theorem test_own_job_taken :
    let s := ownFrame .key (takenTelegram job38 5) .job fun n => { n with job := { n.job with inOffer := some (job38, 5) } }
    let n := completeFrame (ownOrigin s) (takenTelegram job38 5) s.node
    s.node.job.inOffer = some (job38, 5) ∧ s.node.job.held = [] ∧ heldAs s.node (cfg s.node).station .key = true ∧
      newerThanGiven s.node job38.number = true ∧ Sends s (takenTelegram job38 5) .job ∧
      n.job.given = some job38 ∧ n.job.inOffer = none ∧ n.link.newestJob = some 7 ∧ n.link.queue = [presentEntry] := by
  refine ⟨?_, ?_, ?_, ?_, ?_, ?_, ?_, ?_, ?_⟩ <;> first | decide | (simp only [Sends]; decide)

/-- R128, R135: the SHADE node's own BATCH OPENED, with no repeat to seed, with sixteen, and set aside. -/
theorem test_own_opened :
    let p : BatchPayload := { code := 39, first := 60, reason := .drift }
    let ok := fun (x : Nat) => ({ number := x, grade := .ok, mean := some t1 } : Graded)
    let s := fun (history : List Graded) (list : List BatchEntry) => ownFrame .shade (.batchOpened p) .opened fun n =>
      { n with batch := { n.batch with inOffer := 2, history := history, list := list } }
    let n := fun (history : List Graded) (list : List BatchEntry) =>
      completeFrame (ownOrigin (s history list)) (.batchOpened p) (s history list).node
    let sixteen := (List.range 16).map fun i => ok (60 + i)
    let old : BatchEntry := { code := 39, first := 60, last := none, reference := none, state := .forming }
    Sends (s [] []) (.batchOpened p) .opened ∧ isRole (s [] []).node .shade = true ∧
      heldAs (s [] []).node (cfg (s [] []).node).station .shade = true ∧ batchPresent (s [] []).node 39 = false ∧
      batchTooOld (s [] []).node 60 = false ∧ batchPresent (s [] [old]).node 39 = true ∧
      seedRepeats (s [] []).node.batch 60 = [] ∧ (seedRepeats (s sixteen []).node.batch 60).length = 16 ∧
      (n [] []).batch.inOffer = 1 ∧ ((n [] []).batch.own.map fun b => (b.code, b.phase, b.count)) = some (39, .forming, 0) ∧
      ((n sixteen []).batch.own.map fun b => (b.phase, b.count)) = some (.fixed, 16) ∧
      (n [] [old]).batch.own = none ∧ (n [] [old]).batch.inOffer = 1 := by
  refine ⟨?_, ?_⟩ <;> first | decide | (simp only [Sends]; decide)

/-- R149: an own HOLD completes: the same CLEAR with other causes is not offered again, another statement is. -/
theorem test_own_hold :
    let s := fun (w : Statement) => ownFrame .print (.holdClear 60 1) .hold fun n =>
      { n with hold := { n.hold with inOffer := some (.clear 60 1), wanted := some w } }
    let n := fun (w : Statement) => completeFrame (ownOrigin (s w)) (.holdClear 60 1) (s w).node
    Sends (s (.clear 60 3)) (.holdClear 60 1) .hold ∧ holdRole (s (.clear 60 3)).node = true ∧
      (s (.clear 60 3)).node.link.resume = none ∧ (s (.clear 60 3)).node.hold.seen = factorSet (s (.clear 60 3)).node ∧
      downQueued (s (.clear 60 3)).node = false ∧
      (n (.clear 60 3)).hold.lastDone = some (.clear 60 1) ∧ (n (.clear 60 3)).hold.inOffer = none ∧
      (n (.set 61 1)).hold.inOffer = some (.set 61 1) ∧
      (n (.set 61 1)).link.queue.map (·.telegram) = [.present, .holdSet 61 1] := by
  refine ⟨?_, ?_⟩ <;> first | decide | (simp only [Sends]; decide)

/-- R169: the REWIND node's own ROLL. -/
theorem test_own_roll :
    let s := ownFrame .rewind (.roll (rollP 5)) .roll fun n => { n with roll := { n.roll with awaiting := [rollP 5, rollP 6] } }
    let n := completeFrame (ownOrigin s) (.roll (rollP 5)) s.node
    Sends s (.roll (rollP 5)) .roll ∧ isRole s.node .rewind = true ∧ heldAs s.node (cfg s.node).station .rewind = true ∧
      rollClashes s.node.roll.list (rollP 5) = false ∧ inRollList s.node 5 = false ∧
      n.roll.awaiting = [rollP 6] ∧ n.roll.list = [rollP 5] ∧ n.link.newestRoll = some 5 := by
  refine ⟨?_, ?_⟩ <;> first | decide | (simp only [Sends]; decide)

/-- R198: the own REQUEST. -/
theorem test_own_request :
    let s := ownFrame .key (.request .newJob 38) .request fun n => { n with port := { n.port with slot := .pending, kind := some .newJob } }
    let n := completeFrame (ownOrigin s) (.request .newJob 38) s.node
    Sends s (.request .newJob 38) .request ∧ s.node.port.slot = .pending ∧
      n.port.slot = .sent ∧ n.port.attention &&& attRequest = attRequest ∧ n.port.kind = some .newJob := by
  refine ⟨?_, ?_⟩ <;> first | decide | (simp only [Sends]; decide)

/-- The JOINING PRINT node with its own JOIN on the line and no entry known. -/
def joiningNode (bench : Bool) : State :=
  { node := sendingWith [{ telegram := .join (joinP .print 2), restate := false, offerBy := .join }]
      { base .print with st := .joining, benchMark := bench, peers := resetPeers }
    pending := [] }

/-- R35, R191, R192: the own JOIN. -/
theorem test_own_join :
    let n := fun (bench : Bool) => completeFrame (ownOrigin (joiningNode bench)) (.join (joinP .print 2)) (joiningNode bench).node
    (joiningNode true).node.link.sending = true ∧ wfStation (cfg (joiningNode true).node).station = true ∧
      (joiningNode true).node.peers.length = 31 ∧ (joiningNode true).node.resetCause = .power ∧
      (cfg (joiningNode true).node).colourSlot = 2 ∧ (joiningNode true).node.peers.all (fun p => p.role.isNone) = true ∧
      (n false).st = .joined ∧ (n true).st = .benched ∧ (n false).link.resume = some 50 ∧ (n true).link.resume = some 50 ∧
      (peerAt (n false) 12).state = .present ∧ (peerAt (n true) 12).state = .benched ∧ (n true).link.completed = 1 ∧
      (peerAt (n true) 12).learnt = true ∧ (n true).link.sendElapsed = some 0 := by decide

/-- R25: a second station with the node's own number. -/
theorem test_second_station :
    let n := fun (st : NodeState) => { base .print with st := st, muteCause := if st = .muted then some .voiding else none }
    let heard := fun (st : NodeState) (t : Telegram) => completeFrame (from_ 12) t (n st)
    (cfg (n .joined)).station = 12 ∧ tracksW (n .muted) = true ∧ (n .muted).muteCause ≠ some .clash ∧
      appliesFrames (n .listening) = false ∧ appliesFrames (n .benched) = true ∧ downQueued (n .joined) = false ∧
      ([NodeState.listening, .joining, .joined, .benched, .muted].all fun st =>
        [Telegram.present, .roll (rollP 5), .join (joinP .print 2), .request .holdOn 12].all fun t =>
          decide ((heard st t).st = .muted) && decide ((heard st t).muteCause = some .clash) &&
            decide ((heard st t).link.queue = [])) = true ∧
      (completeFrame (from_ 12) .present (sendingWith [recordEntry] (n .joined))).st = .muted ∧
      (completeFrame (from_ 12) .present (sendingWith [recordEntry, { presentEntry with telegram := .down .supply }] (n .joined))).st
        = .down ∧
      (completeFrame (from_ 12) .present (sendingWith [presentEntry] (n .joined))).st = .joined := by decide

/-- A moment counts also where its own step takes it back: the eighth drifting repeat at a report that switches the job, the end of
a suspension at the key mark of a switch, the lock at the third miss, and LINK_FAULT raised again by a refused offer. -/
theorem test_masked_moments :
    (let n := switching [pat2] (okWindow drifting (base .shade))
     driftHit .trackerWindowEnd n = true ∧ (namedCase driftHit .trackerWindowEnd n).batch.lastOpened = some 40 ∧
       driftHit .trackerWindowEnd { n with batch := { n.batch with driftRun := 6 } } = false) ∧
    (let k := withKeyMark .search 0 none { base .print with image := some { config .print with patterns := [pat, pat2] } }
     let n : Node := { k with
       marks := { k.marks with span := some { edge := 4600, cells := [], failed := false, stale := false } }
       job := { k.job with current := some job38, given := some job39, suspension := 1 } }
     suspensionHit .trailingEdge n = true ∧ (markTrailingEdge n).job.suspension = 2) ∧
    (let m := openReg (some 20005) 320 (tracking (base .print))
     let n : Node := { m with
       track := { m.track with missCount := 2, predicted := some 15000 }, job := { m.job with current := some job38 },
       loop := { m.loop with state := .capture, lockRun := 3 } }
     lockRunHit .trackerWindowEnd n = true ∧ (trackerWindowEnd n).loop.state = .opened ∧
       absentRunHit .trackerWindowEnd n = false) ∧
    (let m := sendingWith (presentEntry :: List.replicate 15 recordEntry) (base .print)
     let n : Node := { m with link := { m.link with linkFault := true, ownRun := 15, refusedOffers := [.resume, .resume] } }
     ownRunHit (.completed (from_ 12) .present) n = true ∧ (completeFrame (from_ 12) .present n).link.linkFault = true) := by decide

end Sys2Proof.Tests
end

/-! PROOFS. Web travel: what a tick, an advance, a reset and a rejoin do in the Travel Unit, and WEB_REVERSED (R3). -/
section
namespace Sys2Proof.Proofs

open Sys2Proof.Machine Sys2Proof.Laws Sys2Proof.Claims

/-- What a command that runs `f` on the node leaves. -/
theorem after_of_runNode {c : Instr} {f : Node → Node} {s : State} {p : Node → Prop}
    (hc : exec c s = runNode f s) (hp : p (f s.node)) : After c s p :=
  ⟨f s.node, hc, hp⟩

/-! ### Advances -/

@[simp] theorem moveOn_webReversed (n : Node) : (moveOn n).travel.webReversed = n.travel.webReversed := rfl
@[simp] theorem travelForget_webReversed (n : Node) : (travelForget n).travel.webReversed = n.travel.webReversed := rfl
@[simp] theorem clearSearch_travel (n : Node) : (clearSearch n).travel = n.travel := rfl
@[simp] theorem passSpans_travel (n : Node) : (passSpans n).travel = n.travel := rfl

@[simp] theorem loopToOpen_travel (n : Node) : (loopToOpen n).travel = n.travel := by
  unfold loopToOpen
  split <;> rfl

@[simp] theorem dropShadeWindow_travel (n : Node) : (dropShadeWindow n).travel = n.travel := by
  unfold dropShadeWindow
  split <;> rfl

@[simp] theorem sampleCells_travel (n : Node) : (sampleCells n).travel = n.travel := by
  unfold sampleCells
  split <;> rfl

@[simp] theorem countSample_travel (n : Node) : (countSample n).travel = n.travel := by
  unfold countSample
  split <;> rfl

/-- R6: an entry to SEARCH leaves the Travel Unit as it is where the tracker was in SEARCH, and else forgets the repeat speed. -/
theorem trackerTo_search_travel (n : Node) :
    (trackerTo n .search).travel = if n.track.tracker = .search then n.travel else (travelForget n).travel := by
  unfold trackerTo
  dsimp only
  split
  · rfl
  · rw [dropShadeWindow_travel]
    split
    · simp only [travelForget, loopToOpen_travel]
    · rfl

/-- R2, R6: in the Travel Unit an advance moves the position on, and forgets the repeat speed where the tracker leaves IDLE. -/
theorem advance_travel (n : Node) :
    (advance n).travel = (moveOn n).travel ∨ (advance n).travel = (travelForget (moveOn n)).travel := by
  have hsample : (travelForget (sampleCells (moveOn n))).travel = (travelForget (moveOn n)).travel := by
    simp only [travelForget, sampleCells_travel]
  unfold advance leaveIdle
  split
  · next h =>
    right
    have hidle : (sampleCells (moveOn n)).track.tracker ≠ .search := by simp [h.2.1]
    simp only [passSpans_travel, countSample_travel, clearSearch_travel, trackerTo_search_travel, if_neg hidle, hsample]
  · left
    simp only [passSpans_travel, countSample_travel, sampleCells_travel]

/-- An advance neither begins nor ends reversed web. -/
theorem advance_webReversed (n : Node) : (advance n).travel.webReversed = n.travel.webReversed := by
  obtain h | h := advance_travel n <;> rw [h]
  · rfl
  · rfl

/-! ### Ticks -/

theorem forwardTick_without_debt (n : Node) (h : n.travel.debt = 0) : forwardTick n = advance n := if_pos h

theorem forwardTick_in_debt (n : Node) (h : 0 < n.travel.debt) :
    forwardTick n = { n with travel := { n.travel with
      debt := n.travel.debt - 1, webReversed := n.travel.webReversed && decide (n.travel.debt ≠ 1) } } :=
  if_neg (Nat.ne_of_gt h)

/-- R2: a debt of 16,777,215 ticks grows no more. -/
theorem reverseTick_at_full_debt (n : Node) (h : 16777215 ≤ n.travel.debt) : reverseTick n = n :=
  if_neg (Nat.not_lt.mpr h)

/-- R2, R3: below the full debt a reverse tick adds to the debt and tests it against the backlash limit; the mark and the span that
the first tick of debt ends are outside the Travel Unit. -/
theorem reverseTick_travel (n : Node) (h : n.travel.debt < 16777215) :
    (reverseTick n).travel = { n.travel with
      debt := n.travel.debt + 1
      webReversed := n.travel.webReversed || decide ((cfg n).backlash < n.travel.debt + 1) } := by
  rw [reverseTick, if_pos h]
  by_cases hz : n.travel.debt = 0
  · rw [if_pos hz]; rfl
  · rw [if_neg hz]

/-! ### The cause set -/

theorem causeBit_getLsbD (i j : Nat) (b : Bool) (hj : j < 16) : (causeBit i b).getLsbD j = (b && decide (i = j)) := by
  cases b with
  | false => exact BitVec.getLsbD_zero
  | true =>
    unfold causeBit
    rw [if_pos rfl, BitVec.getLsbD_ofNat, Nat.testBit_two_pow]
    simp [hj]

/-- Table 16: WEB_REVERSED is bit 3 of the cause set. -/
theorem factorInputs_webReversed (n : Node) : (factorInputs n).getLsbD 3 = n.travel.webReversed := by
  simp only [factorInputs, BitVec.getLsbD_or, causeBit_getLsbD _ 3 _ (by decide)]
  simp

/-! ### Resets and the rejoin -/

@[simp] theorem resetNode_travel (n : Node) (c : ResetCause) : (resetNode n c).travel = {} := rfl

@[simp] theorem setState_travel (n : Node) (st : NodeState) : (setState n st).travel = n.travel := by
  rw [setState_eq]

/-- A node that was not JOINED becomes DOWN with its Travel Unit as it is. -/
theorem goDown_travel (n : Node) (h : n.st ≠ .joined) : (goDown n).travel = n.travel := by
  simp [goDown, leaveTo, h]

/-- R190, R32: a supply warning that waits for the end of the reset finds the Travel Unit at its reset values and keeps it there. -/
theorem endReset_resetNode_travel (n : Node) (c : ResetCause) : (endReset (resetNode n c)).travel = {} := by
  unfold endReset
  split
  · exact goDown_travel (resetNode n c) (by simp [resetNode])
  · rfl

theorem powerReset_travel (n : Node) : (powerReset n).travel = {} := by
  unfold powerReset
  dsimp only
  split
  · rfl
  · exact endReset_resetNode_travel n .power

/-- R190: RESETN low holds the Travel Unit at its reset values. -/
theorem pinReset_low_travel (n : Node) : (pinReset true n).travel = {} := rfl

theorem supplyRecovery_travel (n : Node) (hst : n.st = .down) (hwarn : n.pins.supwarn = false)
    (hquiet : 100 ≤ n.pins.supwarnQuiet) (hreset : n.pins.resetLow = false) : (supplyRecovery n).travel = {} := by
  simp [supplyRecovery, hst, hwarn, hquiet, hreset]

/-- R3, R7: a rejoin forgets the repeat speed and keeps the rest of the Travel Unit, the debt and WEB_REVERSED among it. -/
theorem rejoinNode_travel (n : Node) : (rejoinNode n).travel = (travelForget n).travel := by
  have hlisten : (enterListening (rejoinBlocks n)).travel = (rejoinBlocks n).travel := by simp [enterListening]
  unfold rejoinNode
  dsimp only
  split <;> exact hlisten

/-! ### WEB_REVERSED -/

/-- R3: with a backlash limit of 0 any reverse tick that counts makes WEB_REVERSED active. -/
theorem reverseTick_without_backlash (n : Node) (h : n.travel.debt < 16777215) (hb : (cfg n).backlash = 0) :
    (reverseTick n).travel.webReversed = true := by
  simp [reverseTick_travel n h, hb]

/-- Settles O7: each tick by what it does in the Travel Unit, the factor by its bit of the cause set, the resets and the rejoin by
what they leave of the Travel Unit. -/
theorem webReversedFollowsTheDebt : Obligations.WebReversedFollowsTheDebt := by
  unfold Obligations.WebReversedFollowsTheDebt
  refine ⟨fun n h => ⟨?_, ?_, reverseTick_without_backlash n h⟩, fun n h => ?_, fun n h => ?_, reverseTick_at_full_debt,
    factorInputs_webReversed, fun s => ?_, fun s => ?_, fun s hst hwarn hquiet hreset => ?_, fun n => ?_⟩
  · rw [reverseTick_travel n h]
  · rw [reverseTick_travel n h]
  · rw [forwardTick_in_debt n h]
    exact ⟨rfl, rfl, rfl⟩
  · rw [forwardTick_without_debt n h, advance_webReversed]
  · exact after_of_runNode rfl (by rw [powerReset_travel])
  · exact after_of_runNode rfl (by rw [pinReset_low_travel])
  · exact after_of_runNode rfl (by rw [supplyRecovery_travel s.node hst hwarn hquiet hreset])
  · rw [rejoinNode_travel, travelForget_webReversed]

end Sys2Proof.Proofs
end

/-! PROOFS. The Link Controller after a reset and after a rejoin (R41). -/
section
namespace Sys2Proof.Proofs

open Sys2Proof.Machine Sys2Proof.Laws Sys2Proof.Claims

/-! ### Resets -/

@[simp] theorem resetNode_link (n : Node) (c : ResetCause) : (resetNode n c).link = {} := rfl
@[simp] theorem resetNode_st (n : Node) (c : ResetCause) : (resetNode n c).st = .loading := rfl

/-- R32: with SUPWARN inactive nothing waits for the end of a reset. -/
theorem endReset_without_warning (n : Node) (h : n.pins.supwarn = false) : endReset n = n := by
  simp [endReset, h]

/-- R190: with SUPWARN inactive a power reset is the reset alone, also while RESETN is low. -/
theorem powerReset_without_warning (n : Node) (h : n.pins.supwarn = false) : powerReset n = resetNode n .power := by
  have hend : endReset (resetNode n .power) = resetNode n .power := endReset_without_warning _ h
  unfold powerReset
  dsimp only
  split
  · rfl
  · exact hend

theorem pinReset_low (n : Node) :
    pinReset true n = resetNode { n with pins := { n.pins with resetLow := true } } .pin := rfl

theorem supplyRecovery_after_quiet (n : Node) (hst : n.st = .down) (hwarn : n.pins.supwarn = false)
    (hquiet : 100 ≤ n.pins.supwarnQuiet) (hreset : n.pins.resetLow = false) :
    supplyRecovery n = resetNode n .supply := by
  simp [supplyRecovery, hst, hwarn, hquiet, hreset]

/-! ### The rejoin -/

@[simp] theorem setState_link (n : Node) (st : NodeState) : (setState n st).link = n.link := by
  rw [setState_eq]

@[simp] theorem enterListening_st (n : Node) : (enterListening n).st = .listening :=
  setState_st n .listening

@[simp] theorem enterListening_link (n : Node) :
    (enterListening n).link = { n.link with listen := some 20, heardEnd := false } := by
  simp [enterListening]

/-- R28: the record of a hold that the rejoin ends is all that it adds to the entry of LISTENING. -/
theorem rejoinNode_eq (n : Node) :
    rejoinNode n = { enterListening (rejoinBlocks n) with port := (rejoinNode n).port } := by
  unfold rejoinNode
  dsimp only
  split <;> rfl

theorem rejoinNode_st (n : Node) : (rejoinNode n).st = .listening := by
  rw [rejoinNode_eq]
  exact enterListening_st _

/-- R41, R35: of the Link Controller a rejoin keeps w and the counters, and the listen timer runs. -/
theorem rejoinNode_link (n : Node) :
    (rejoinNode n).link =
      { w := n.link.w, completed := n.link.completed, raised := n.link.raised, seenVoids := n.link.seenVoids,
        dropped := n.link.dropped, discarded := n.link.discarded, listen := some 20 } := by
  rw [rejoinNode_eq]
  exact enterListening_link _

/-- Settles O49: each reset is `resetNode`, whose Link Controller is the default one, and the rejoin by what it keeps of the link. -/
theorem resetAndRejoinOfTheLink : Obligations.ResetAndRejoinOfTheLink := by
  unfold Obligations.ResetAndRejoinOfTheLink
  refine ⟨fun s hwarn => ?_, fun n => ?_⟩
  · intro isReset
    have hreset : ∀ n c, isReset (resetNode n c) := by simp [isReset]
    refine ⟨after_of_runNode rfl ?_, after_of_runNode rfl ?_, fun hst hlow hquiet => after_of_runNode rfl ?_⟩
    · rw [powerReset_without_warning s.node hwarn]
      exact hreset _ _
    · rw [pinReset_low]
      exact hreset _ _
    · rw [supplyRecovery_after_quiet s.node hst hwarn hquiet hlow]
      exact hreset _ _
  · rw [rejoinNode_link, rejoinNode_st]
    simp

end Sys2Proof.Proofs
end

/-! PROOFS. Every command runs a function on the node, and what every step keeps: the bounds of R2, R4, R8, R15, R31, R42, R50,
R171 and of the Peer Table, carried through the shared operations of each block up to the step. -/
section
namespace Sys2Proof.Proofs

open Sys2Proof.Machine Sys2Proof.Laws Sys2Proof.Claims

/-! ### Commands run on the node -/

/-- What a command does to the node: the function that its arm of `exec` runs. -/
def meaning : Instr → Node → Node
  | .encoderCount a b => encoderCount a b
  | .webReversedOnset a b => namedCase reversedBegins (.encoder a b)
  | .webReversedEnd a b => namedCase reversedEnds (.encoder a b)
  | .speedInterval => speedInterval
  | .standstillTimer => standstillTimer
  | .markLeadingEdge => markLeadingEdge
  | .markTrailingEdge => markTrailingEdge
  | .registerWindowEnd => registerWindowEnd
  | .openRunReached c => namedCase openRunHit c
  | .lockRunReached c => namedCase lockRunHit c
  | .unlockRunReached c => namedCase unlockRunHit c
  | .absentRunReached c => namedCase absentRunHit c
  | .settleCountZero c => namedCase settleHit c
  | .stepTrainCompletion => stepTrainCompletion
  | .embossIndex => embossIndex
  | .tallySpanEnd => tallySpanEnd
  | .tallySuspensionEnd c => namedCase suspensionHit c
  | .outsideRunReached c => namedCase outsideHit c
  | .insideRunReached c => namedCase insideHit c
  | .triggerFire => triggerFire
  | .cutPulseEnd => cutPulseEnd
  | .actuationCompletion => actuationCompletion
  | .coveragePassageEnd => coveragePassageEnd
  | .cylinderIndex => cylinderIndex
  | .spliceDetection => spliceDetection
  | .trackerWindowEnd => trackerWindowEnd
  | .alignCountReached c => namedCase alignHit c
  | .missCountReached c => namedCase missHit c
  | .lostHoldOffEnd => lostHoldOffEnd
  | .shadeSample codes => shadeSample codes
  | .calibrationDue c => namedCase dueHit c
  | .calibrationEnd => calibrationEnd
  | .formingCountReached c => namedCase formingHit c
  | .driftRunReached c => namedCase driftHit c
  | .stepWatchFull c => namedCase watchHit c
  | .quietCountReached c => namedCase quietHit c
  | .slotStart => slotStart
  | .frameCheck bits => frameCheck bits
  | .frameVoided sender => frameVoided sender
  | .frameCutShort => frameCutShort
  | .telegramDropped c => namedCase dropHit c
  | .senderBitDifference inHeader => senderBitDifference inHeader
  | .clashMarkDetected => clashMarkDetected
  | .lineStuck frameOnLine => lineStuck frameOnLine
  | .lineIdle => lineIdle
  | .voidRunLimit c => namedCase voidRunHit c
  | .rejoin c => namedCase rejoinHit c
  | .ownCompletionRunLimit c => namedCase ownRunHit c
  | .sendTimer => sendTimer
  | .listenTimer => listenTimer
  | .listenSilence => listenSilence
  | .resumeWindowClose => resumeWindowClose
  | .join o p => completeFrame o (.join p)
  | .resume o p => completeFrame o (.resume p)
  | .present o => completeFrame o .present
  | .down o cause => completeFrame o (.down cause)
  | .undefinedCodeTelegram o p => completeFrame o (.undefined p)
  | .requestNewJob o arg => completeFrame o (.request .newJob arg)
  | .requestCloseBatch o arg => completeFrame o (.request .closeBatch arg)
  | .requestCloseRoll o arg => completeFrame o (.request .closeRoll arg)
  | .requestHoldOn o arg => completeFrame o (.request .holdOn arg)
  | .requestClearHold o arg => completeFrame o (.request .clearHold arg)
  | .jobTaken o p => completeFrame o (.jobTaken p)
  | .jobRefused o p => completeFrame o (.jobRefused p)
  | .repeat_ o p => completeFrame o (.repeat_ p)
  | .register o p => completeFrame o (.register p)
  | .shade o p => completeFrame o (.shade p)
  | .batchOpened o p => completeFrame o (.batchOpened p)
  | .batchFixed o p t => completeFrame o (.batchFixed p t)
  | .holdSet o x causes => completeFrame o (.holdSet x causes)
  | .holdClear o x causes => completeFrame o (.holdClear x causes)
  | .roll o p => completeFrame o (.roll p)
  | .labelled o x out => completeFrame o (.labelled x out)
  | .peerSilenceW station => peerSilenceW station
  | .peerSilence2W station => peerSilence2W station
  | .supplyWarning => supplyWarning
  | .supplyRecovery => supplyRecovery
  | .powerReset => powerReset
  | .pinReset low => pinReset low
  | .configurationLoadEnd image => configurationLoadEnd image
  | .arriveEdge high => arriveEdge high
  | .arrival => arrival
  | .sensorClear => sensorClear
  | .readyFall => readyFall
  | .readyRise => readyRise
  | .printTimer => printTimer
  | .readyTimer => readyTimer
  | .applyPulseEnd => applyPulseEnd
  | .rollDeadline number => rollDeadline number
  | .readNode => readNodeView
  | .readPeers => readView viewPeers
  | .readTrack number => readTrackView number
  | .readRolls => readView viewRolls
  | .readBatches => readView viewBatches
  | .readHolds => readView viewHolds
  | .readJob => readView viewJob
  | .readCounters => readView viewCounters
  | .unknownCommand code => unknownCommandByte code
  | .placeNewJob arg => placeRequest .newJob arg
  | .placeCloseBatch arg => placeRequest .closeBatch arg
  | .placeCloseRoll arg => placeRequest .closeRoll arg
  | .placeHoldOn arg => placeRequest .holdOn arg
  | .placeClearHold arg => placeRequest .clearHold arg
  | .placeInvalidRequestKind _ _ => placeInvalid
  | .supwarnInactive => supwarnInactive

theorem exec_eq_runNode (c : Instr) (s : State) : exec c s = runNode (meaning c) s := by
  cases c <;> rfl

theorem gives_meaning (c : Instr) (s : State) : Gives c s (meaning c s.node) := exec_eq_runNode c s

theorem gives_of_meaning {c : Instr} {s : State} {n : Node} (h : meaning c s.node = n) : Gives c s n := h ▸ gives_meaning c s

/-- A statement about a command is one about its meaning. -/
theorem after_meaning {c : Instr} {s : State} {p : Node → Prop} (h : p (meaning c s.node)) : After c s p :=
  ⟨meaning c s.node, gives_meaning c s, h⟩

/-- Settles O1: both sides are the same match on the queue. -/
theorem stepRunsTheFrontCommand : Obligations.StepRunsTheFrontCommand := by
  unfold Obligations.StepRunsTheFrontCommand
  rintro c rest ⟨n, q⟩ hq
  subst hq
  exact step_of_cons c rest n

/-- Settles O3: every arm of `exec` runs a function on the node, and a step on an empty queue is a tick. -/
theorem noCommandStopsTheNode : Obligations.NoCommandStopsTheNode := by
  unfold Obligations.NoCommandStopsTheNode
  refine ⟨fun c s => ⟨_, gives_meaning c s⟩, fun s => ?_⟩
  obtain ⟨n, q⟩ := s
  cases q with
  | nil => exact ⟨_, step_of_nil n⟩
  | cons c rest => exact ⟨_, (step_of_cons c rest n).trans (gives_meaning c _)⟩

/-- Settles O4: each of the rows is `namedCase` of its own test. -/
theorem namedMomentsRunTheirStep : Obligations.NamedMomentsRunTheirStep := by
  unfold Obligations.NamedMomentsRunTheirStep
  intro c s
  exact ⟨gives_meaning _ s, gives_meaning _ s, gives_meaning _ s, gives_meaning _ s, gives_meaning _ s, gives_meaning _ s,
    gives_meaning _ s, gives_meaning _ s, gives_meaning _ s, gives_meaning _ s, gives_meaning _ s, gives_meaning _ s,
    gives_meaning _ s, gives_meaning _ s, gives_meaning _ s, gives_meaning _ s, gives_meaning _ s, gives_meaning _ s,
    gives_meaning _ s⟩

/-- Settles O57: the stores are empty and the counts 0 right after reset. -/
theorem resetMeetsTheBounds : Obligations.ResetMeetsTheBounds := by
  unfold Obligations.ResetMeetsTheBounds
  exact ⟨Nat.zero_le _, ⟨Nat.zero_le _, Nat.zero_le _⟩, List.length_replicate, Nat.zero_le _, Nat.zero_le _, fun _ => rfl,
    ⟨Nat.zero_le _, Nat.zero_le _⟩, rfl⟩

/-! ### The milliseconds of the peers -/

theorem tickPeers_length (n : Node) : (tickPeers n).length = n.peers.length := by
  unfold tickPeers
  split
  · exact List.length_mapIdx
  · rfl

/-- R195: the entry of another station that is not ABSENT ages by a millisecond. -/
theorem peerAt_tick (n : Node) (k : Nat) (h1 : 1 ≤ k) (h2 : k ≤ n.peers.length) :
    peerAt (tick n) k =
      if appliesFrames n = true ∧ k ≠ (cfg n).station ∧ (peerAt n k).state ≠ .absent
      then { peerAt n k with silence := (peerAt n k).silence + 1 } else peerAt n k := by
  have hk : k - 1 < n.peers.length := by omega
  have hs : k - 1 + 1 = k := by omega
  have hpeer : peerAt n k = n.peers[k - 1] := by simp [peerAt, h1, List.getD, hk]
  have htick : peerAt (tick n) k = (tickPeers n).getD (k - 1) {} := by simp [peerAt, h1, tick]
  rw [htick, hpeer]
  by_cases ha : appliesFrames n = true
  · simp only [tickPeers, ha, List.getD, List.getElem?_mapIdx, List.getElem?_eq_getElem hk, Option.map_some,
      Option.getD_some, hs, true_and, if_true]
    by_cases hc : k = (cfg n).station ∨ n.peers[k - 1].state = .absent
    · rw [if_pos hc, if_neg fun h => hc.elim h.1 h.2]
    · rw [if_neg hc, if_pos ⟨fun h => hc (Or.inl h), fun h => hc (Or.inr h)⟩]
  · simp [tickPeers, ha, List.getD, hk]

/-- Settles O2: a step on an empty queue is `tick`, whose fields stand as the statement gives them. -/
theorem emptyQueuePassesAMillisecond : Obligations.EmptyQueuePassesAMillisecond := by
  unfold Obligations.EmptyQueuePassesAMillisecond
  rintro ⟨n, q⟩ hq
  subst hq
  refine ⟨tick n, step_of_nil n, ?_, tickPeers_length n, fun k h1 h2 => peerAt_tick n k h1 h2⟩
  have hs : tickSending n.label.sending =
      (match n.label.sending with
       | none => none
       | some (b, t) => if t < 31 then some (b, t + 1) else none) := by
    cases n.label.sending <;> rfl
  unfold tick
  rw [hs]
  rfl

end Sys2Proof.Proofs
end

/-! PROOFS. The bounds that every step keeps (R2, R4, R8, R15, R31, R42, R50, R171 and the Peer Table), carried through the shared
operations of each block. -/
section
namespace Sys2Proof.Proofs

open Sys2Proof.Machine Sys2Proof.Laws Sys2Proof.Claims

/-! ### The bounds between two nodes -/

/-- `a` keeps every bound that `b` meets. -/
structure Keeps (a b : Node) : Prop where
  queue : queueBounded b → queueBounded a
  web : travelBounded b ∧ noMarkInDebt b → travelBounded a ∧ noMarkInDebt a
  peers : peersComplete b → peersComplete a
  table : tableBounded b → tableBounded a
  triggers : triggersBounded b → triggersBounded a
  stores : storesBounded b → storesBounded a

/-- What the bounds read of a node. -/
def extent (n : Node) : (Nat × Nat × Nat × Nat × Nat × Nat) × Nat × Nat × Option Mark :=
  ((n.link.queue.length, n.peers.length, n.track.table.length, n.trig.entries.length, n.track.splices.length,
    n.roll.list.length), n.travel.debt, n.travel.speed, n.marks.mark)

namespace Keeps

theorem self (n : Node) : Keeps n n := ⟨id, id, id, id, id, id⟩

theorem trans {a b c : Node} (h1 : Keeps a b) (h2 : Keeps b c) : Keeps a c :=
  ⟨h1.queue ∘ h2.queue, h1.web ∘ h2.web, h1.peers ∘ h2.peers, h1.table ∘ h2.table, h1.triggers ∘ h2.triggers,
    h1.stores ∘ h2.stores⟩

/-- Stores that are no longer, with the same debt, speed, mark and Peer Table size, keep the bounds. -/
theorem of_le {a b : Node} (hq : a.link.queue.length ≤ b.link.queue.length) (ht : a.track.table.length ≤ b.track.table.length)
    (hg : a.trig.entries.length ≤ b.trig.entries.length) (hs : a.track.splices.length ≤ b.track.splices.length)
    (hr : a.roll.list.length ≤ b.roll.list.length) (hp : a.peers.length = b.peers.length) (hd : a.travel.debt = b.travel.debt)
    (hv : a.travel.speed = b.travel.speed) (hm : a.marks.mark = b.marks.mark) : Keeps a b := by
  refine ⟨Nat.le_trans hq, ?_, hp.trans, Nat.le_trans ht, Nat.le_trans hg,
    fun ⟨h4, h16⟩ => ⟨Nat.le_trans hs h4, Nat.le_trans hr h16⟩⟩
  rintro ⟨⟨h1, h2⟩, h3⟩
  exact ⟨⟨hd ▸ h1, hv ▸ h2⟩, fun h => hm.trans (h3 (hd ▸ h))⟩

theorem of_extent {a b : Node} (h : extent a = extent b) : Keeps a b := by
  unfold extent at h
  simp only [Prod.mk.injEq] at h
  obtain ⟨⟨hq, hp, ht, hg, hs, hr⟩, hd, hv, hm⟩ := h
  exact of_le (Nat.le_of_eq hq) (Nat.le_of_eq ht) (Nat.le_of_eq hg) (Nat.le_of_eq hs) (Nat.le_of_eq hr) hp hd hv hm

/-- A further update that the bounds do not read. -/
theorem same {a b c : Node} (h : Keeps b c) (e : extent a = extent b) : Keeps a c := (of_extent e).trans h

/-- What leaves all but the Hold Unit, the link and the port keeps the bounds when it keeps that of the queue. -/
theorem of_sansHold {a b : Node} (h : sansHold a = sansHold b) (hq : QueueFits b → QueueFits a) : Keeps a b := by
  rw [eq_of_sansHold h]
  exact ⟨hq, id, id, id, id, id⟩

theorem of_sansLink {a b : Node} (h : sansLink a = sansLink b) (hq : QueueFits b → QueueFits a) : Keeps a b :=
  of_sansHold (sansHold_of_sansLink h) hq

theorem of_sansLoop {a b : Node} (h : sansLoop a = sansLoop b) (hq : QueueFits b → QueueFits a) : Keeps a b := by
  have he : a = { b with loop := a.loop, nip := a.nip, link := a.link } :=
    calc a = { sansLoop a with loop := a.loop, nip := a.nip, link := a.link } := rfl
      _ = { sansLoop b with loop := a.loop, nip := a.nip, link := a.link } := by rw [h]
  rw [he]
  exact ⟨hq, id, id, id, id, id⟩

theorem of_shade {a b : Node} (h : ShadeKeeps a b) : Keeps a b := by
  have he : a = { b with shade := a.shade, batch := a.batch, link := a.link, freeIndex := a.freeIndex } :=
    calc a = { sansShade a with shade := a.shade, batch := a.batch, link := a.link, freeIndex := a.freeIndex } := rfl
      _ = { sansShade b with shade := a.shade, batch := a.batch, link := a.link, freeIndex := a.freeIndex } := by rw [h.view]
  have hq := h.queue
  rw [he] at hq ⊢
  exact ⟨hq, id, id, id, id, id⟩

/-- A Roll Builder whose roll list is no longer. -/
theorem of_roll (n : Node) (u : RollUnit) (h : u.list.length ≤ n.roll.list.length) : Keeps { n with roll := u } n :=
  of_le (Nat.le_refl _) (Nat.le_refl _) (Nat.le_refl _) (Nat.le_refl _) h rfl rfl rfl rfl

theorem ite {a b n : Node} {p : Prop} [Decidable p] (ha : Keeps a n) (hb : Keeps b n) : Keeps (if p then a else b) n := by
  split
  · exact ha
  · exact hb

/-- A fold of a kept operation. -/
theorem foldl {α : Type} {f : Node → α → Node} (hf : ∀ n x, Keeps (f n x) n) (l : List α) (n : Node) :
    Keeps (l.foldl f n) n := by
  induction l generalizing n with
  | nil => exact self n
  | cons x xs ih => exact (ih (f n x)).trans (hf n x)

end Keeps

/-! ### Shared operations -/

theorem useFree_keeps (n : Node) (k : Nat) : Keeps (useFree n k) n := .of_extent rfl
theorem attend_keeps (n : Node) (c : BitVec 4) : Keeps (attend n c) n := .of_extent rfl
theorem countRefusal_keeps (n : Node) : Keeps (countRefusal n) n := .of_extent rfl
theorem raiseLinkFault_keeps (n : Node) : Keeps (raiseLinkFault n) n := .of_extent rfl
theorem travelForget_keeps (n : Node) : Keeps (travelForget n) n := .of_extent rfl
theorem clearSearch_keeps (n : Node) : Keeps (clearSearch n) n := .of_extent rfl

theorem setState_keeps (n : Node) (st : NodeState) : Keeps (setState n st) n := by
  rw [setState_eq]
  exact .of_extent rfl

theorem endRequest_keeps (n : Node) (x : SlotState) : Keeps (endRequest n x) n := by
  rw [endRequest_eq]
  exact .of_extent rfl

theorem enqueue_keeps (n : Node) (t : Telegram) (r : Bool) (b : OfferBy) : Keeps (enqueue n t r b).1 n :=
  .of_sansLink (enqueue_sansLink n t r b) (enqueue_length n t r b)

theorem offerPlain_keeps (n : Node) (t : Telegram) : Keeps (offerPlain n t) n := enqueue_keeps n t false .plain

theorem offerAgain_keeps (n : Node) (t : Telegram) (r : Bool) (b : OfferBy) (o : Reoffer) : Keeps (offerAgain n t r b o) n :=
  .of_sansLink (offerAgain_sansLink n t r b o) (offerAgain_length n t r b o)

theorem loopToOpen_keeps (n : Node) : Keeps (loopToOpen n) n := by
  unfold loopToOpen
  split
  · exact .self n
  · exact .of_extent rfl

theorem dropShadeWindow_keeps (n : Node) : Keeps (dropShadeWindow n) n := by
  unfold dropShadeWindow
  split
  · exact .of_extent rfl
  · exact .self n

theorem trackerTo_keeps (n : Node) (st : TrackerState) : Keeps (trackerTo n st) n := by
  have hn : Keeps { n with track := { n.track with tracker := st } } n := .of_extent rfl
  unfold trackerTo
  dsimp only
  split
  · exact hn
  · have h2 : Keeps (if n.track.tracker = .track then loopToOpen { n with track := { n.track with tracker := st } }
        else { n with track := { n.track with tracker := st } }) n := by
      split
      · exact (loopToOpen_keeps _).trans hn
      · exact hn
    split
    · exact h2
    · exact h2
    · exact (dropShadeWindow_keeps _).trans ((travelForget_keeps _).trans h2)

/-! ### The Hold Unit -/

theorem holdSettle_keeps (n : Node) : Keeps (holdSettle n) n := .of_sansHold (sansHold_holdSettle n) (holdSettle_queue n)
theorem holdReport_keeps (n : Node) : Keeps (holdReport n) n := .of_sansHold (sansHold_holdReport n) (holdReport_queue n)

theorem clearHold_keeps (n : Node) (m : Nat) : Keeps (clearHold n m) n :=
  .of_sansHold (sansHold_clearHold n m) (clearHold_queue n m)

theorem holdOfferWanted_keeps (n : Node) : Keeps (holdOfferWanted n) n :=
  .of_sansHold (sansHold_holdOfferWanted n) (holdOfferWanted_queue n)

theorem holdAbsorb_keeps (n : Node) : Keeps (holdAbsorb n) n :=
  .of_sansHold (sansHold_holdAbsorb n) fun h => by unfold QueueFits; rw [holdAbsorb_link]; exact h

theorem resetHoldUnit_keeps (n : Node) : Keeps (resetHoldUnit n) n := by
  have h : Keeps (setHoldState n .clear) n :=
    .of_sansHold (sansHold_setHoldState n .clear) fun h => by unfold QueueFits; rw [setHoldState_link]; exact h
  exact h.same rfl

/-! ### The Trigger Table -/

theorem armTrigger_keeps (n : Node) (out : TriggerOutput) (p : Pos) (tag : Nat) : Keeps (armTrigger n out p tag).1 n := by
  have he : (armTrigger n out p tag).1 = { n with trig := (armTrigger n out p tag).1.trig } :=
    calc (armTrigger n out p tag).1
        = { sansTrig (armTrigger n out p tag).1 with trig := (armTrigger n out p tag).1.trig } := rfl
      _ = { sansTrig n with trig := (armTrigger n out p tag).1.trig } := by rw [armTrigger_sansTrig]
  have ht := armTrigger_length n out p tag
  rw [he]
  exact ⟨id, id, id, id, ht, id⟩

theorem armTrigger_keeps_of_eq {n m : Node} {out : TriggerOutput} {p : Pos} {tag : Nat} {a : ArmAnswer}
    (h : armTrigger n out p tag = (m, a)) : Keeps m n := by
  have hk := armTrigger_keeps n out p tag
  rwa [h] at hk

theorem cancelTrigger_keeps (n : Node) (tag : Nat) : Keeps (cancelTrigger n tag).1 n :=
  ⟨id, id, id, id, cancelTrigger_length n tag, id⟩

theorem cutPulse_keeps (n : Node) : Keeps (cutPulse n) n := .of_extent rfl

theorem cutPulseEnd_keeps (n : Node) : Keeps (cutPulseEnd n) n := by
  unfold cutPulseEnd
  split
  · exact .of_extent rfl
  · exact .self n

/-! ### The Register Loop -/

theorem loopResult_keeps (n : Node) (i : LoopInput) : Keeps (loopResult n i) n :=
  .of_sansLoop (loopResult_sansLoop n i) (loopResult_queue n i)

theorem settleReport_keeps (n : Node) : Keeps (settleReport n) n := .of_extent rfl

theorem holdLoop_keeps (n : Node) : Keeps (holdLoop n) n := by
  unfold holdLoop
  split
  · exact loopToOpen_keeps n
  · exact .self n

theorem stepTrainCompletion_keeps (n : Node) : Keeps (stepTrainCompletion n) n := by
  unfold stepTrainCompletion
  split
  · split
    · dsimp only
      split
      · exact .of_extent rfl
      · exact .of_extent rfl
    · exact .self n
  · split
    · split
      · exact .of_extent rfl
      · exact .self n
    · exact .self n

/-! ### The Travel Unit -/

theorem iterate_keeps {f : Node → Node} (hf : ∀ n, Keeps (f n) n) (k : Nat) (n : Node) : Keeps (iterate f k n) n := by
  induction k generalizing n with
  | zero => exact .self n
  | succ k ih => exact (ih (f n)).trans (hf n)

theorem sampleCells_keeps (n : Node) : Keeps (sampleCells n) n := by
  unfold sampleCells
  split
  · exact .self n
  · exact .of_extent rfl

theorem leaveIdle_keeps (n : Node) : Keeps (leaveIdle n) n := by
  unfold leaveIdle
  split
  · exact (clearSearch_keeps _).trans (trackerTo_keeps n .search)
  · exact .self n

theorem countSample_keeps (n : Node) : Keeps (countSample n) n := by
  unfold countSample
  split
  · exact .of_extent rfl
  · exact .self n

theorem moveOn_keeps (n : Node) : Keeps (moveOn n) n := .of_extent rfl
theorem passSpans_keeps (n : Node) : Keeps (passSpans n) n := .of_extent rfl

theorem advance_keeps (n : Node) : Keeps (advance n) n :=
  (passSpans_keeps _).trans ((countSample_keeps _).trans ((leaveIdle_keeps _).trans ((sampleCells_keeps _).trans
    (moveOn_keeps n))))

/-- R2: paying debt leaves no mark where none was. -/
theorem forwardTick_keeps (n : Node) : Keeps (forwardTick n) n := by
  by_cases h : n.travel.debt = 0
  · rw [forwardTick_without_debt n h]
    exact advance_keeps n
  · rw [forwardTick_in_debt n (Nat.pos_of_ne_zero h)]
    refine ⟨id, ?_, id, id, id, id⟩
    rintro ⟨⟨hd, hv⟩, hm⟩
    exact ⟨⟨Nat.le_trans (Nat.sub_le _ _) hd, hv⟩, fun _ => hm (Nat.pos_of_ne_zero h)⟩

/-- R8: a mark in progress ends where the debt rises above 0. -/
theorem reverseTick_mark (n : Node) (h : n.travel.debt < 16777215) :
    (reverseTick n).marks.mark = if n.travel.debt = 0 then none else n.marks.mark := by
  rw [reverseTick, if_pos h]
  dsimp only
  split <;> rfl

theorem reverseTick_eq (n : Node) (h : n.travel.debt < 16777215) :
    reverseTick n = { n with marks := (reverseTick n).marks, travel := (reverseTick n).travel } := by
  rw [reverseTick, if_pos h]
  dsimp only
  split <;> rfl

theorem reverseTick_keeps (n : Node) : Keeps (reverseTick n) n := by
  by_cases h : n.travel.debt < 16777215
  · rw [reverseTick_eq n h]
    refine ⟨id, ?_, id, id, id, id⟩
    rintro ⟨⟨_, hv⟩, hm⟩
    unfold travelBounded noMarkInDebt
    dsimp only
    rw [reverseTick_travel n h, reverseTick_mark n h]
    refine ⟨⟨h, hv⟩, fun _ => ?_⟩
    split
    · rfl
    · next hz => exact hm (Nat.pos_of_ne_zero hz)
  · rw [reverseTick_at_full_debt n (Nat.not_lt.mp h)]
    exact .self n

theorem takeCount_keeps (n : Node) (f : Bool) : Keeps (takeCount n f) n := by
  have hstart : ∀ r : Int, Keeps
      { (if (cfg n).denominator = 0 then useFree n 1 else n) with
        travel := { (if (cfg n).denominator = 0 then useFree n 1 else n).travel with remainder := r } } n := by
    intro r
    split
    · exact .of_extent rfl
    · exact .of_extent rfl
  unfold takeCount
  dsimp only
  cases f with
  | true => exact (iterate_keeps forwardTick_keeps _ _).trans (hstart _)
  | false => exact (iterate_keeps reverseTick_keeps _ _).trans (hstart _)

theorem encoderCount_keeps (a b : Bool) (n : Node) : Keeps (encoderCount a b n) n := by
  unfold encoderCount
  dsimp only
  split
  · exact (holdSettle_keeps _).trans ((takeCount_keeps _ _).trans (.of_extent rfl))
  · exact .of_extent rfl

/-- R4: the speed is held at 65,535. -/
theorem speedInterval_keeps (n : Node) : Keeps (speedInterval n) n := by
  unfold speedInterval
  split
  · exact ⟨id, fun ⟨⟨hd, _⟩, hm⟩ => ⟨⟨hd, Nat.min_le_right _ _⟩, hm⟩, id, id, id, id⟩
  · exact .self n

theorem boundary_keeps (n : Node) (e : Pos) (t : Nat) (c : Bool) : Keeps (boundary n e t c) n := by
  have hu : Keeps (match n.travel.lastBoundary with
      | some b => if t ≤ b.2 then useFree n 1 else n
      | none => n) n := by
    split
    · split
      · exact useFree_keeps n 1
      · exact .self n
    · exact .self n
  exact hu.same rfl

/-! ### The Mark Reader -/

theorem takeWindow_keeps (n : Node) (w : RegWindow) : Keeps (takeWindow n w) n :=
  (loopResult_keeps _ _).trans (.of_extent rfl)

theorem takeIfCertain_keeps (n : Node) : Keeps (takeIfCertain n) n := by
  unfold takeIfCertain
  split
  · exact .self n
  · split
    · exact takeWindow_keeps n _
    · exact .self n

theorem closeWindow_keeps (n : Node) : Keeps (closeWindow n) n := by
  unfold closeWindow
  split
  · exact .self n
  · exact takeWindow_keeps n _

theorem offerCandidate_keeps (n : Node) (e : Pos) : Keeps (offerCandidate n e) n := by
  unfold offerCandidate
  split
  · exact .self n
  · split
    · exact (takeIfCertain_keeps _).trans (.of_extent rfl)
    · exact .self n

theorem openWindow_keeps (n : Node) (x : Nat) (e : Pos) (sy tr : Bool) : Keeps (openWindow n x e sy tr) n := by
  unfold openWindow
  split
  · exact .self n
  · split
    · exact loopResult_keeps n _
    · exact (takeIfCertain_keeps _).trans (.of_extent rfl)

theorem registerWindowEnd_keeps (n : Node) : Keeps (registerWindowEnd n) n :=
  (holdSettle_keeps _).trans (takeIfCertain_keeps n)

theorem colourMark_keeps (n : Node) (e : Pos) : Keeps (colourMark n e) n := by
  have hp : Keeps (placeColour n e) n := by
    unfold placeColour
    dsimp only
    split
    · exact .of_extent rfl
    · exact .of_extent rfl
  exact (offerCandidate_keeps _ e).trans hp

theorem embossIndex_keeps (n : Node) : Keeps (embossIndex n) n := by
  unfold embossIndex
  split
  · exact (holdSettle_keeps _).trans ((offerCandidate_keeps _ _).trans (.of_extent rfl))
  · exact .self n

theorem formObserved_keeps (n : Node) : Keeps (formObserved n) n := .of_extent rfl

theorem tallyCheck_keeps (n : Node) : Keeps (tallyCheck n) n := by
  unfold tallyCheck
  split
  · exact .self n
  · exact .of_extent rfl

theorem enterRead_keeps (n : Node) (r : Option Nat) : Keeps (enterRead n r) n := by
  have hobs : ∀ (l : List (Option Nat)) (o : Option Nat), Keeps
      (if o = n.marks.observed then { n with marks := { n.marks with reads := l, observed := o } }
       else tallyCheck (formObserved { n with marks := { n.marks with reads := l, observed := o } })) n := by
    intro l o
    split
    · exact .of_extent rfl
    · exact (tallyCheck_keeps _).trans ((formObserved_keeps _).trans (.of_extent rfl))
  exact hobs _ _

theorem endSpan_keeps (n : Node) (sp : TallySpan) (r : Option Nat) : Keeps (endSpan n sp r) n := by
  have he : Keeps (enterRead { n with marks := { n.marks with span := none } } r) n :=
    (enterRead_keeps _ r).trans (.of_extent rfl)
  unfold endSpan lowerSuspension
  split
  · exact he
  · dsimp only
    split
    · exact (tallyCheck_keeps _).trans (he.same rfl)
    · exact he.same rfl

theorem failSpan_keeps (n : Node) : Keeps (failSpan n) n := by
  unfold failSpan
  split
  · exact .self n
  · exact endSpan_keeps n _ none

theorem startSpan_keeps (n : Node) (e : Pos) : Keeps (startSpan n e) n := .of_extent rfl

theorem tallySpanEnd_keeps (n : Node) : Keeps (tallySpanEnd n) n := by
  unfold tallySpanEnd
  split
  · exact .self n
  · split
    · exact (holdSettle_keeps _).trans (endSpan_keeps n _ _)
    · exact .self n

/-- R8: a mark begins only where no debt stands. -/
theorem markLeadingEdge_keeps (n : Node) : Keeps (markLeadingEdge n) n := by
  unfold markLeadingEdge
  split
  · exact .self n
  · dsimp only
    split
    · next h =>
      refine ⟨id, fun hw => ⟨hw.1, fun hd => ?_⟩, id, id, id, id⟩
      exact absurd h.2 (Nat.ne_of_gt hd)
    · exact .of_extent rfl

/-! ### The Nip Controller -/

theorem openNip_keeps (n : Node) : Keeps (openNip n) n := by
  unfold openNip
  split
  · exact .self n
  · exact .of_extent rfl
  · exact .of_extent rfl
  · exact .of_extent rfl

theorem closeNip_keeps (n : Node) : Keeps (closeNip n) n := by
  unfold closeNip
  split
  · split
    · exact .of_extent rfl
    · exact .of_extent rfl
    · exact .self n
  · exact .self n

theorem cancelRegular_keeps (n : Node) : Keeps (cancelRegular n) n := by
  unfold cancelRegular
  split
  · exact (cancelTrigger_keeps n 1).same rfl
  · exact .self n

theorem actuationCompletion_keeps (n : Node) : Keeps (actuationCompletion n) n := by
  unfold actuationCompletion
  split
  · dsimp only
    split
    · exact .of_extent rfl
    · split
      · exact (closeNip_keeps _).trans (.of_extent rfl)
      · exact .of_extent rfl
    · exact .of_extent rfl
  · exact .self n

theorem testRegular_keeps (n : Node) (e : Pos) : Keeps (testRegular n e) n := by
  unfold testRegular
  split
  · split
    · next h => exact (armTrigger_keeps_of_eq h).same rfl
    · next h => exact (closeNip_keeps _).trans (armTrigger_keeps_of_eq h)
    · next h => exact armTrigger_keeps_of_eq h
  · exact .self n

theorem setPassage_keeps (n : Node) (p : Option Passage) : Keeps (setPassage n p) n := .of_extent rfl
theorem openDone_keeps (n : Node) : Keeps (openDone n) n := .of_extent rfl
theorem endPassage_keeps (n : Node) : Keeps (endPassage n) n := (closeNip_keeps _).trans (setPassage_keeps n none)

theorem armOpen_keeps (n : Node) (o : Pos) : Keeps (armOpen n o) n := by
  unfold armOpen
  split
  · next h => exact (setPassage_keeps _ _).trans (armTrigger_keeps_of_eq h)
  · next h => exact (openDone_keeps _).trans ((openNip_keeps _).trans (armTrigger_keeps_of_eq h))

theorem armReclose_keeps (n : Node) : Keeps (armReclose n) n := by
  unfold armReclose
  split
  · exact .self n
  · split
    · next h => exact (setPassage_keeps _ _).trans (armTrigger_keeps_of_eq h)
    · next h => exact (endPassage_keeps _).trans (armTrigger_keeps_of_eq h)
    · next h => exact armTrigger_keeps_of_eq h

theorem startPassage_keeps (n : Node) (o : Option Pos) (c : Pos) : Keeps (startPassage n o c) n := by
  unfold startPassage
  dsimp only
  refine (armReclose_keeps _).trans ?_
  split
  · exact (openDone_keeps _).trans ((openNip_keeps _).trans ((setPassage_keeps _ _).trans (cancelRegular_keeps n)))
  · exact (armOpen_keeps _ _).trans ((setPassage_keeps _ _).trans (cancelRegular_keeps n))

theorem mergeOpen_keeps (n : Node) (q : Passage) (o : Option Pos) : Keeps (mergeOpen n q o) n := by
  unfold mergeOpen
  split
  · exact (openDone_keeps _).trans ((cancelTrigger_keeps _ 2).trans (openNip_keeps n))
  · exact (openDone_keeps _).trans (openNip_keeps n)
  · split
    · exact armOpen_keeps n _
    · exact .self n
  · exact .self n

theorem takeSplice_keeps (n : Node) (o : Option Pos) (c : Pos) : Keeps (takeSplice n o c) n := by
  unfold takeSplice
  split
  · exact startPassage_keeps n o c
  · unfold mergePassage
    dsimp only
    split
    · exact (armReclose_keeps _).trans ((setPassage_keeps _ _).trans (mergeOpen_keeps n _ o))
    · exact mergeOpen_keeps n _ o

theorem retryReclose_keeps (n : Node) : Keeps (retryReclose n) n := by
  unfold retryReclose
  split
  · split
    · exact .self n
    · exact armReclose_keeps n
  · exact .self n

theorem nipSplices_keeps (n : Node) (e : Pos) (s : Option Nat) (m : Bool) : Keeps (nipSplices n e s m) n := by
  have hm : ∀ c : Pos, Keeps (if m then takeSplice n none c else n) n := by
    intro c
    split
    · exact takeSplice_keeps n none c
    · exact .self n
  unfold nipSplices
  split
  · exact .self n
  · dsimp only
    split
    · exact hm _
    · exact (takeSplice_keeps _ _ _).trans (hm _)

theorem nipReport_keeps (n : Node) (x : Nat) (e : Pos) (real sw : Bool) (s : Option Nat) (m : Bool) :
    Keeps (nipReport n x e real sw s m) n := by
  have hs : Keeps (if sw then nipSwitch n else n) n := by
    split
    · unfold nipSwitch
      dsimp only
      split
      · exact (openNip_keeps _).trans (cancelRegular_keeps n)
      · exact cancelRegular_keeps n
    · exact .self n
  have hp : Keeps (nipSplices (retryReclose (if sw then nipSwitch n else n)) e s m) n :=
    (nipSplices_keeps _ e s m).trans ((retryReclose_keeps _).trans hs)
  unfold nipReport
  split
  · exact .self n
  · cases real with
    | true => exact ((testRegular_keeps _ e).trans hp).same rfl
    | false => exact hp.same rfl

theorem coveragePassageEnd_keeps (n : Node) : Keeps (coveragePassageEnd n) n := by
  unfold coveragePassageEnd
  split
  · split
    · exact .of_extent rfl
    · exact .self n
  · exact .self n

theorem nipFired_keeps (n : Node) (tag : Nat) : Keeps (nipFired n tag) n := by
  unfold nipFired
  split
  · exact (closeNip_keeps _).trans (.of_extent rfl)
  · exact (openDone_keeps _).trans (openNip_keeps n)
  · exact endPassage_keeps n

theorem standstillTimer_keeps (n : Node) : Keeps (standstillTimer n) n := by
  unfold standstillTimer
  split
  · dsimp only
    split
    · exact (cancelRegular_keeps _).trans ((openNip_keeps _).trans (.of_extent rfl))
    · exact .of_extent rfl
  · exact .self n

theorem nipLeave_keeps (n : Node) : Keeps (nipLeave n) n := by
  unfold nipLeave
  split
  · exact (cancelRegular_keeps _).trans (openNip_keeps n)
  · exact .self n

/-! ### The Shade Integrator and the Batch Unit -/

theorem shadeSample_keeps (c : ShadeCodes) (n : Node) : Keeps (shadeSample c n) n := by
  unfold shadeSample
  split
  · exact .of_extent rfl
  · exact .self n

theorem calibrationEnd_keeps (n : Node) : Keeps (calibrationEnd n) n := by
  have he : ∀ r, Keeps (endCalibration n r) n := by
    intro r
    unfold endCalibration
    split
    · exact .of_extent rfl
    · exact .of_extent rfl
  unfold calibrationEnd
  split
  · exact .self n
  · split
    · exact (holdSettle_keeps _).trans (he _)
    · exact .self n

theorem decideOpening_keeps (n : Node) (f : Nat) (r : BatchReason) : Keeps (decideOpening n f r) n :=
  .of_shade (decideOpening_shadeKeeps n f r)

theorem batchStart_keeps (n : Node) : Keeps (batchStart n) n := by
  unfold batchStart
  split
  · have hf := Keeps.foldl (f := fun (m : Node) (o : Nat × BatchReason) => decideOpening m o.1 o.2)
      fun m o => decideOpening_keeps m o.1 o.2
    refine (hf _ _).trans ?_
    exact .of_extent rfl
  · exact .self n

theorem resetShadeUnit_keeps (n : Node) : Keeps (resetShadeUnit n) n := .of_extent rfl

theorem closeBatchRequest_keeps (n : Node) : Keeps (closeBatchRequest n) n := by
  unfold closeBatchRequest
  split
  · split
    · exact decideOpening_keeps n _ _
    · exact countRefusal_keeps n
  · exact .self n

end Sys2Proof.Proofs
end

/-! PROOFS. The bounds that every step keeps, second part: the Roll Builder, the jobs, the match report, the telegrams, the line
link, the resets and the port; and the step. -/
section
namespace Sys2Proof.Proofs

open Sys2Proof.Machine Sys2Proof.Laws Sys2Proof.Claims

/-! ### The Roll Builder -/

@[simp] theorem placeOutside_list (u : RollUnit) (c : Nat) (r : CutReasons) : (placeOutside u c r).list = u.list := by
  unfold placeOutside
  split
  · rfl
  · split
    · rfl
    · split <;> rfl

/-- R156: a single entry is placed in the cut plan; the roll list stays. -/
@[simp] theorem placeCut_list (u : RollUnit) (c : Nat) (r : CutReasons) : (placeCut u c r).list = u.list := by
  unfold placeCut
  split
  · split
    · rfl
    · split
      · rfl
      · exact placeOutside_list u c r
  · exact placeOutside_list u c r

@[simp] theorem agreePlan_list (u : RollUnit) (a b : Nat) : (agreePlan u a b).list = u.list := by
  unfold agreePlan
  exact (apply_ite RollUnit.list _ _ _).trans (ite_self _)

@[simp] theorem planFull_list (c : Config) (u : RollUnit) (x : Nat) (k : PieceKind) (p : Option Nat) :
    (planFull c u x k p).list = u.list := by
  unfold planFull
  dsimp only
  split
  · exact placeCut_list _ _ _
  · rfl

@[simp] theorem dueEntry_list (u : RollUnit) (h : Nat) : (dueEntry u h).list = u.list := by
  unfold dueEntry
  split
  · rfl
  · split <;> rfl
  · rfl

/-- A change of the Roll Builder that leaves the roll list. -/
theorem Keeps.of_rollList {n : Node} {u : RollUnit} (h : u.list = n.roll.list) : Keeps { n with roll := u } n :=
  .of_roll n u (Nat.le_of_eq (congrArg List.length h))

theorem planSplice_keeps (n : Node) (x : Nat) : Keeps (planSplice n x) n := by
  unfold planSplice
  split
  · exact .of_rollList (agreePlan_list _ _ _)
  · exact .self n

theorem offerRoll_keeps (n : Node) (x : Nat) : Keeps (offerRoll n x) n := by
  unfold offerRoll
  split
  · exact .self n
  · exact offerAgain_keeps n _ _ _ _

theorem offerRegrade_keeps (n : Node) (x : Nat) (ch : RollChange) : Keeps (offerRegrade n x ch) n := by
  unfold offerRegrade
  split
  · exact .self n
  · exact offerAgain_keeps n _ _ _ _

theorem fireCut_keeps (n : Node) (e : PlanEntry) (p : Pos) : Keeps (fireCut n e p) n := by
  unfold fireCut
  dsimp only
  split
  · refine (offerRoll_keeps _ _).trans ?_
    exact .of_le (withdrawRolls_length _ _) (Nat.le_refl _) (Nat.le_refl _) (Nat.le_refl _) (Nat.le_refl _) rfl rfl rfl rfl
  · exact .of_extent rfl

theorem cutFired_keeps (n : Node) (tag : Nat) (p : Pos) : Keeps (cutFired n tag p) n := by
  unfold cutFired
  split
  · exact .self n
  · exact fireCut_keeps n _ p

theorem armEntry_keeps (n : Node) (e : PlanEntry) (edge : Pos) : Keeps (armEntry n e edge) n := by
  have h0 : ∀ p : List PlanEntry, Keeps { n with roll := { n.roll with plan := p } } n := fun _ => .of_extent rfl
  have hp : ∀ {m : Node} {u : RollUnit}, Keeps m n → u.list = m.roll.list → Keeps { m with roll := u } n :=
    fun hm hu => (Keeps.of_rollList hu).trans hm
  unfold armEntry
  dsimp only
  split
  · next h => exact (armTrigger_keeps_of_eq h).trans (h0 _)
  · next h => exact hp ((armTrigger_keeps_of_eq h).trans (h0 _)) (planFull_list _ _ _ _ _)
  · next h =>
    have hm := (armTrigger_keeps_of_eq h).trans (h0 _)
    split
    · exact (fireCut_keeps _ _ _).trans (hp hm (planFull_list _ _ _ _ _))
    · exact hp hm (planFull_list _ _ _ _ _)

theorem armCuts_keeps (n : Node) (x : Nat) (e : Pos) : Keeps (armCuts n x e) n := by
  have hd : Keeps { n with roll := dueEntry n.roll x } n := .of_rollList (dueEntry_list _ _)
  unfold armCuts
  split
  · exact .self n
  · dsimp only
    split
    · split
      · exact (armEntry_keeps _ _ _).trans hd
      · exact hd
    · exact hd

theorem openStart_keeps (n : Node) (x : Nat) (e : Pos) : Keeps (openStart n x e) n := by
  unfold openStart
  split
  · refine .of_rollList ?_
    dsimp only
    split
    · split
      · rfl
      · exact placeCut_list _ _ _
    · exact placeCut_list _ _ _
  · exact .self n

theorem rollReport_keeps (n : Node) (x : Nat) (e : Pos) (real : Bool) (sw : Option Nat) : Keeps (rollReport n x e real sw) n := by
  unfold rollReport
  split
  · have h1 : Keeps (match sw with
        | some f => { n with roll := placeCut n.roll f { job := true } }
        | none => n) n := by
      split
      · exact .of_rollList (placeCut_list _ _ _)
      · exact .self n
    have h2 : ∀ m : Node, Keeps m n → Keeps (if m.track.tracker = .track ∧ n.link.resume = none then openStart m x e else m) n := by
      intro m hm
      split
      · exact (openStart_keeps m x e).trans hm
      · exact hm
    dsimp only
    split
    · exact (armCuts_keeps _ x e).trans (h2 _ h1)
    · exact h2 _ h1
  · exact .self n

theorem rollBatch_keeps (n : Node) (b r : Nat) : Keeps (rollBatch n b r) n := by
  have hp : ∀ (x : Nat) (c : CutReasons), Keeps { n with roll := placeCut n.roll x c } n := fun x c =>
    .of_rollList (placeCut_list _ _ _)
  have hl : Keeps (lateBatch n b r) n := by
    unfold lateBatch
    refine (Keeps.foldl (f := regradeListed b r) (fun m c => ?_) _ _).trans (.of_extent rfl)
    unfold regradeListed
    split
    · exact .self m
    · exact offerRegrade_keeps m _ _
  have he : ∀ e h, Keeps (lateEntry n e r h) n := by
    intro e h
    unfold lateEntry
    split
    · exact .self n
    · exact .of_rollList (placeCut_list _ _ _)
  have hq : ∀ p h, Keeps (latePiece n p r h) n := by
    intro p h
    unfold latePiece
    split
    · exact .self n
    · exact .of_rollList (placeCut_list _ _ _)
  unfold rollBatch
  split
  · split
    · exact hp _ _
    · split
      · exact hp _ _
      · split
        · exact .self n
        · split
          · exact he _ _
          · split
            · exact hq _ _
            · exact hl
  · exact .self n

theorem closeRollRequest_keeps (n : Node) : Keeps (closeRollRequest n) n := by
  unfold closeRollRequest
  split
  · split
    · exact .of_rollList (placeCut_list _ _ _)
    · exact countRefusal_keeps n
  · exact .self n

theorem rollStart_keeps (n : Node) : Keeps (rollStart n) n := by
  unfold rollStart
  split
  · exact .of_extent rfl
  · exact .self n

theorem rollLeave_keeps (n : Node) : Keeps (rollLeave n) n := by
  have hf := Keeps.foldl (f := fun (m : Node) (t : Nat) => (cancelTrigger m t).1) fun m t => cancelTrigger_keeps m t
  exact (hf _ n).same rfl

/-! ### Jobs -/

theorem giveJob_keeps (n : Node) (j : JobRecord) : Keeps (giveJob n j) n := .of_extent rfl
theorem holdRequest_keeps (n : Node) (q : HeldRequest) : Keeps (holdRequest n q) n := .of_extent rfl
theorem jobLeave_keeps (n : Node) : Keeps (jobLeave n) n := .of_extent rfl

theorem answerJob_keeps (n : Node) (r : Nat) (a : JobAnswer) : Keeps (answerJob n r a) n := by
  unfold answerJob
  split
  · exact .of_extent rfl
  · exact .self n

theorem offerJob_keeps (n : Node) : Keeps (offerJob n) n := by
  unfold offerJob
  split
  · exact .self n
  · exact offerAgain_keeps n _ _ _ _

theorem refuseJob_keeps (n : Node) (q : NewJobRequest) : Keeps (refuseJob n q) n :=
  (countRefusal_keeps _).trans (offerPlain_keeps n _)

theorem decideJob_keeps (n : Node) (q : NewJobRequest) : Keeps (decideJob n q) n := by
  unfold decideJob
  split
  · split
    · exact refuseJob_keeps n q
    · exact (offerJob_keeps _).trans (.of_extent rfl)
  · exact refuseJob_keeps n q

theorem newJobRequest_keeps (n : Node) (q : NewJobRequest) : Keeps (newJobRequest n q) n := by
  unfold newJobRequest
  split
  · split
    · split
      · exact holdRequest_keeps n _
      · exact refuseJob_keeps n q
    · exact decideJob_keeps n q
  · exact .self n

theorem testSwitch_keeps (n : Node) (j : Option JobRecord) (x : Nat) : Keeps (testSwitch n j x).1 n := by
  unfold testSwitch
  split
  · exact .self n
  · split
    · split
      · exact .of_extent rfl
      · exact .of_extent rfl
    · exact .self n

theorem lengthCheck_keeps (n : Node) (len : Nat) : Keeps (lengthCheck n len) n := by
  refine (formObserved_keeps _).trans ?_
  split
  · exact .of_extent rfl
  · exact .of_extent rfl

theorem keyStart_keeps (n : Node) : Keeps (keyStart n) n := by
  unfold keyStart
  split
  · exact .of_extent rfl
  · exact .self n

/-! ### The issuer and the table -/

/-- R51: the arrivals that a repeat takes leave the queue. -/
theorem takeSplices_length (q : List Pos) (i : Pos) (len : Nat) : (takeSplices q i len).1.length ≤ q.length :=
  List.length_filter_le _ _

theorem issueRepeat_keeps (n : Node) (x len : Nat) (i : Pos) : Keeps (issueRepeat n x len i) n := by
  refine (offerPlain_keeps _ _).trans ((lengthCheck_keeps _ _).trans ((testSwitch_keeps _ _ _).trans ?_))
  exact .of_le (Nat.le_refl _) (Nat.le_refl _) (Nat.le_refl _) (takeSplices_length _ _ _) (Nat.le_refl _) rfl rfl rfl rfl

theorem indexIssues_keeps {n m : Node} (h : indexIssues n = some m) : Keeps m n := by
  unfold indexIssues at h
  split at h
  · dsimp only at h
    split at h
    · cases h
      exact (boundary_keeps _ _ _ _).trans (issueRepeat_keeps n _ _ _)
    · cases h
  · cases h

theorem cylinderIndex_keeps (n : Node) : Keeps (cylinderIndex n) n := by
  unfold cylinderIndex
  split
  · next h => exact (holdReport_keeps _).trans (indexIssues_keeps h)
  · split
    · exact (holdSettle_keeps _).trans ((boundary_keeps _ _ _ _).trans (.of_extent rfl))
    · exact .self n

/-- R50: a fifth arrival does not join the splice queue. -/
theorem spliceDetection_keeps (n : Node) : Keeps (spliceDetection n) n := by
  unfold spliceDetection
  dsimp only
  split
  · split
    · next h4 =>
      refine ⟨id, id, id, id, id, fun ⟨_, h16⟩ => ⟨?_, h16⟩⟩
      simp only [List.length_append, List.length_singleton]
      omega
    · exact (holdSettle_keeps _).trans ((raiseLinkFault_keeps _).trans (.of_extent rfl))
  · exact .self n

/-- R44: an eviction makes room in the table and leaves the rest of what the bounds read. -/
theorem evictRecord_bounds (n : Node) :
    (evictRecord n).track.table = n.track.table.tail ∧
    extent { evictRecord n with track := n.track } = extent n ∧
    (evictRecord n).track.splices = n.track.splices := by
  unfold evictRecord
  split
  · next h => exact ⟨by rw [h]; rfl, rfl, rfl⟩
  · next r rest h =>
    dsimp only
    rw [h]
    split <;> split <;> exact ⟨rfl, by simp [extent], rfl⟩

/-- R42: a record joins a table of fewer than 512 records, or one that an eviction made room in. -/
theorem appendRepeat_keeps (n : Node) (s : Nat) (p : RepeatPayload) : Keeps (appendRepeat n s p) n := by
  have happend : ∀ r : Node → RepeatRecord, Keeps
      (let m := if n.track.table.length < 512 then n else evictRecord n
       { m with track := { m.track with table := m.track.table ++ [r m] } }) n := by
    intro r
    dsimp only
    split
    · next h =>
      refine ⟨id, id, id, fun _ => ?_, id, id⟩
      unfold tableBounded
      simp only [List.length_append, List.length_singleton]
      omega
    · obtain ⟨ht, he, hs⟩ := evictRecord_bounds n
      have hk : Keeps { evictRecord n with track := n.track } n := .of_extent he
      refine ⟨hk.queue, hk.web, hk.peers, fun hb => ?_, hk.triggers, fun hb => ?_⟩
      · have h512 : n.track.table.length ≤ 512 := hb
        unfold tableBounded
        simp only [List.length_append, List.length_singleton, ht, List.length_tail]
        omega
      · have h2 := hk.stores hb
        unfold storesBounded at h2 ⊢
        dsimp only at h2 ⊢
        rw [hs]
        exact h2
  have hswitch : ∀ m : Node, Keeps m n → Keeps (if isRole m .label then (testSwitch m m.job.given p.number).1 else m) n := by
    intro m hm
    split
    · exact (testSwitch_keeps _ _ _).trans hm
    · exact hm
  unfold appendRepeat
  split
  · exact .self n
  · have h3 := hswitch _ (happend fun m => newRecord m p)
    dsimp only
    split
    · exact (planSplice_keeps _ _).trans h3
    · exact h3

theorem updateRecord_keeps (n : Node) (x : Nat) (f : RepeatRecord → RepeatRecord) : Keeps (updateRecord n x f) n :=
  .of_le (Nat.le_refl _) (Nat.le_of_eq (List.length_map ..)) (Nat.le_refl _) (Nat.le_refl _) (Nat.le_refl _) rfl rfl rfl rfl

theorem applyRegister_keeps (n : Node) (s : Nat) (p : RegisterPayload) : Keeps (applyRegister n s p) n := by
  have h1 : ∀ (b : Prop) [Decidable b] (f : RepeatRecord → RepeatRecord),
      Keeps (if b then updateRecord n p.number f else n) n := by
    intro b _ f
    split
    · exact updateRecord_keeps n _ _
    · exact .self n
  unfold applyRegister
  dsimp only
  split
  · split
    · exact (updateRecord_keeps _ _ _).trans (h1 _ _)
    · exact h1 _ _
  · exact h1 _ _

theorem applyShade_keeps (n : Node) (s : Nat) (p : ShadePayload) : Keeps (applyShade n s p) n := by
  unfold applyShade
  split
  · exact updateRecord_keeps n _ _
  · exact .self n

theorem retireRun_keeps (n : Node) (f c : Nat) : Keeps (retireRun n f c) n :=
  .of_le (Nat.le_refl _) (List.length_filter_le _ _) (Nat.le_refl _) (Nat.le_refl _) (Nat.le_refl _) rfl rfl rfl rfl

/-! ### The match report and the tracker -/

theorem travelReport_keeps (n : Node) (r : MatchReport) (f : Bool) : Keeps (travelReport n r f) n := by
  have hb : Keeps (if r.real then boundary n r.edge r.time r.wasTrack else travelForget n) n := by
    split
    · exact boundary_keeps n _ _ _
    · exact travelForget_keeps n
  unfold travelReport
  dsimp only
  split
  · exact (travelForget_keeps _).trans ((holdSettle_keeps _).trans hb)
  · exact hb

theorem reportLength_keeps (n : Node) (x : Nat) : Keeps (reportLength n x) n := by
  unfold reportLength
  split
  · exact lengthCheck_keeps n _
  · exact .self n

theorem reportClose_keeps (n : Node) (r : MatchReport) : Keeps (reportClose n r) n := by
  have h2 : Keeps (if reportFalls n r then fallen (reportSwitch n r).1 else (reportSwitch n r).1) n := by
    have hs : Keeps (reportSwitch n r).1 n := testSwitch_keeps _ _ _
    split
    · exact hs.same rfl
    · exact hs
  have h3 := (reportLength_keeps _ r.number).trans ((travelReport_keeps _ r (reportFalls n r)).trans h2)
  unfold reportClose reportStart
  refine (settleReport_keeps _).trans ((closeWindow_keeps _).trans ((holdLoop_keeps _).trans ?_))
  split
  · exact (loopToOpen_keeps _).trans h3
  · exact h3

theorem matchReport_keeps (n : Node) (r : MatchReport) : Keeps (matchReport n r) n :=
  (rollReport_keeps _ _ _ _ _).trans ((Keeps.of_shade (shadeReport_shadeKeeps _ _ _)).trans
    ((nipReport_keeps _ _ _ _ _ _ _).trans ((openWindow_keeps _ _ _ _ _).trans (reportClose_keeps n r))))

theorem matchedState_keeps (n : Node) : Keeps (matchedState n) n := by
  unfold matchedState
  split
  · split
    · exact .of_extent rfl
    · exact .of_extent rfl
  · exact .of_extent rfl
  · exact .of_extent rfl

theorem takeMatch_keeps (n : Node) (m : RepeatRecord × List RepeatRecord × Nat) (e : Pos) : Keeps (takeMatch n m e) n :=
  .of_extent rfl

theorem useDepth_keeps (n : Node) : Keeps (useDepth n) n := by
  unfold useDepth
  split
  · exact useFree_keeps n 1
  · exact .self n

theorem countMiss_keeps (n : Node) : Keeps (countMiss n) n := by
  unfold countMiss
  split
  · exact .of_extent rfl
  · exact (trackerTo_keeps n .lost).same rfl

theorem unclaimedMark_keeps (n : Node) (e : Pos) : Keeps (unclaimedMark n e) n := by
  have hc : Keeps (countUnclaimed n) n := .of_extent rfl
  unfold unclaimedMark
  dsimp only
  split
  · exact (clearSearch_keeps _).trans ((trackerTo_keeps _ _).trans hc)
  · exact (countMiss_keeps _).trans (hc.same rfl)
  · exact hc

theorem offerMark_keeps (n : Node) (e : Pos) (t : Nat) : Keeps (offerMark n e t) n := by
  unfold offerMark
  split
  · next p h =>
    unfold markReport at h
    obtain ⟨m, -, rfl⟩ := Option.map_eq_some_iff.mp h
    exact (matchReport_keeps _ _).trans ((matchedState_keeps _).trans ((takeMatch_keeps _ _ _).trans (useDepth_keeps n)))
  · exact (unclaimedMark_keeps _ _).trans (useDepth_keeps n)

theorem keyMark_keeps (n : Node) (e : Pos) (t : Nat) : Keeps (keyMark n e t) n := by
  have ht : ∀ m : Node, Keeps (trackMark m e t) m := by
    intro m
    unfold trackMark
    split
    · exact .of_extent rfl
    · exact .of_extent rfl
    · exact offerMark_keeps m e t
  unfold keyMark
  split
  · exact .of_extent rfl
  · exact (startSpan_keeps _ _).trans ((ht _).trans (failSpan_keeps n))

theorem classifyMark_keeps (n : Node) (m : Mark) (w : Int) : Keeps (classifyMark n m w) n := by
  unfold classifyMark
  split
  · exact keyMark_keeps n _ _
  · split
    · exact .self n
    · split
      · split
        · exact colourMark_keeps n _
        · exact .self n
      · exact .of_extent rfl

theorem settleAfter_keeps (b n : Node) : Keeps (settleAfter b n) n := by
  unfold settleAfter
  split
  · exact holdReport_keeps n
  · exact holdSettle_keeps n

/-- R8: a mark that ends is in progress no more. -/
theorem markEnded_keeps {n : Node} {p : Node × Mark} (h : markEnded n = some p) : Keeps p.1 n := by
  unfold markEnded at h
  split at h
  · cases h
  · dsimp only at h
    split at h
    · cases h
      exact ⟨id, fun hw => ⟨hw.1, fun _ => rfl⟩, id, id, id, id⟩
    · cases h

theorem markTrailingEdge_keeps (n : Node) : Keeps (markTrailingEdge n) n := by
  unfold markTrailingEdge
  split
  · next m h =>
    obtain ⟨p, hp, rfl⟩ := Option.map_eq_some_iff.mp h
    exact (settleAfter_keeps _ _).trans ((classifyMark_keeps _ _ _).trans (markEnded_keeps hp))
  · exact .of_extent rfl

theorem synthesise_keeps (n : Node) (p : Pos) : Keeps (synthesise n p) n := by
  unfold synthesise
  split
  · next q h =>
    unfold synthReport at h
    obtain ⟨r, -, rfl⟩ := Option.map_eq_some_iff.mp h
    exact (matchReport_keeps _ _).trans (.of_extent rfl)
  · exact .of_extent rfl

theorem windowMissed_keeps {n m : Node} (h : windowMissed n = some m) : Keeps m n := by
  unfold windowMissed at h
  split at h
  · split at h
    · cases h
      exact (clearSearch_keeps _).trans (trackerTo_keeps n _)
    · next p _ _ =>
      cases h
      split
      · exact (countMiss_keeps _).trans ((holdSettle_keeps _).trans (synthesise_keeps n p))
      · exact synthesise_keeps n p
    · cases h
  · cases h

theorem trackerWindowEnd_keeps (n : Node) : Keeps (trackerWindowEnd n) n := by
  unfold trackerWindowEnd
  split
  · next h => exact (settleAfter_keeps _ _).trans (windowMissed_keeps h)
  · exact .self n

theorem lostHoldOffEnd_keeps (n : Node) : Keeps (lostHoldOffEnd n) n := by
  unfold lostHoldOffEnd
  split
  · split
    · exact (holdSettle_keeps _).trans ((clearSearch_keeps _).trans (trackerTo_keeps n _))
    · exact .self n
  · exact .self n

theorem fireEntry_keeps (n : Node) (e : TriggerEntry) : Keeps (fireEntry n e) n := by
  unfold fireEntry
  split
  · exact (cutFired_keeps _ _ _).trans (cutPulse_keeps n)
  · exact nipFired_keeps n _

theorem fireDue_keeps (k : Nat) (n : Node) : Keeps (fireDue k n) n := by
  induction k generalizing n with
  | zero => exact .self n
  | succ k ih =>
    unfold fireDue
    split
    · exact .self n
    · next e rest he =>
      split
      · refine (ih _).trans ((fireEntry_keeps _ e).trans ?_)
        refine .of_le (Nat.le_refl _) (Nat.le_refl _) ?_ (Nat.le_refl _) (Nat.le_refl _) rfl rfl rfl rfl
        rw [he]
        exact Nat.le_succ _
      · exact .self n

theorem triggerFire_keeps (n : Node) : Keeps (triggerFire n) n := (holdSettle_keeps _).trans (fireDue_keeps _ n)

end Sys2Proof.Proofs
end

/-! PROOFS. The bounds that every step keeps, third part: the telegrams, the line link, the resets and the port; and the step. -/
section
namespace Sys2Proof.Proofs

open Sys2Proof.Machine Sys2Proof.Laws Sys2Proof.Claims

/-! ### The hold list and the operator's requests -/

/-- R150, R151: a change of each record leaves the number of records. -/
theorem markHeld_keeps (n : Node) (s x : Nat) : Keeps (markHeld n s x) n :=
  .of_le (Nat.le_refl _) (Nat.le_of_eq (List.length_map ..)) (Nat.le_refl _) (Nat.le_refl _) (Nat.le_refl _) rfl rfl rfl rfl

theorem unmarkHeld_keeps (n : Node) (s m : Nat) : Keeps (unmarkHeld n s m) n :=
  .of_le (Nat.le_refl _) (Nat.le_of_eq (List.length_map ..)) (Nat.le_refl _) (Nat.le_refl _) (Nat.le_refl _) rfl rfl rfl rfl

theorem applyHoldSet_keeps (n : Node) (s x : Nat) (c : CauseSet) : Keeps (applyHoldSet n s x c) n := by
  unfold applyHoldSet
  split
  · exact .self n
  · split
    · exact (markHeld_keeps _ _ _).trans (.of_extent rfl)
    · exact (markHeld_keeps _ _ _).trans (.of_extent rfl)

theorem applyHoldClear_keeps (n : Node) (s m : Nat) : Keeps (applyHoldClear n s m) n := by
  unfold applyHoldClear
  split
  · exact .self n
  · exact (unmarkHeld_keeps _ _ _).trans (.of_extent rfl)

theorem closeHoldOf_keeps (n : Node) (s : Nat) : Keeps (closeHoldOf n s) n := .of_extent rfl
theorem retireHolds_keeps (n : Node) (l : Nat) : Keeps (retireHolds n l) n := .of_extent rfl

theorem rollClears_keeps (n : Node) (l : Nat) : Keeps (rollClears n l) n := by
  unfold rollClears
  split
  · split
    · exact clearHold_keeps n l
    · exact .self n
  · exact .self n

theorem takeHoldOn_keeps (n : Node) : Keeps (takeHoldOn n) n := by
  unfold takeHoldOn
  split
  · exact .of_extent rfl
  · exact countRefusal_keeps n

theorem takeClearHold_keeps (n : Node) : Keeps (takeClearHold n) n := by
  unfold takeClearHold
  split
  · exact countRefusal_keeps n
  · exact (clearHold_keeps _ _).trans (.of_extent rfl)

theorem operatorRequest_keeps (n : Node) (s : Nat) (on : Bool) : Keeps (operatorRequest n s on) n := by
  unfold operatorRequest
  split
  · split
    · exact holdRequest_keeps n _
    · split
      · exact takeHoldOn_keeps n
      · exact takeClearHold_keeps n
  · exact .self n

theorem takeHeldRequest_keeps (n : Node) (q : HeldRequest) : Keeps (takeHeldRequest n q) n := by
  unfold takeHeldRequest
  split
  · refine (holdSettle_keeps _).trans ?_
    split
    · exact takeHoldOn_keeps n
    · exact takeClearHold_keeps n
  · split
    · exact holdRequest_keeps n _
    · exact decideJob_keeps n _

theorem takeHeld_keeps (n : Node) : Keeps (takeHeld n) n :=
  (Keeps.foldl takeHeldRequest_keeps _ _).trans (.of_extent rfl)

theorem holdStart_keeps (n : Node) : Keeps (holdStart n) n := (holdSettle_keeps _).trans (.of_extent rfl)

/-! ### Labelling and the roll list -/

/-- The node without its Label Composer and Link Controller. -/
def sansLabel (n : Node) : Node := { n with label := {}, link := {} }

theorem sansLabel_of_sansLink {a b : Node} (h : sansLink a = sansLink b) : sansLabel a = sansLabel b := by
  have h2 := congrArg sansLabel h
  exact h2

theorem offerLabelled_sansLabel (n : Node) (o : OutcomeEntry) : sansLabel (offerLabelled n o) = sansLabel n := by
  have h := sansLabel_of_sansLink (enqueue_sansLink n (.labelled o.number o.outcome) false (.labelled o.serial))
  unfold offerLabelled
  split
  · next m hm =>
    rw [hm] at h
    split
    · exact h
    · exact h
  · next m _ _ hm => rw [hm] at h; exact h

theorem offerLabelled_queue (n : Node) (o : OutcomeEntry) (h : QueueFits n) : QueueFits (offerLabelled n o) := by
  have hl := enqueue_length n (.labelled o.number o.outcome) false (.labelled o.serial) h
  unfold offerLabelled
  split
  · next m hm =>
    rw [hm] at hl
    split
    · exact hl
    · exact hl
  · next m _ _ hm => rw [hm] at hl; exact hl

/-- R186: an outcome that joins those in offer writes the Label Composer and the transmit queue, and nothing else. -/
theorem joinOutcome_sansLabel (n : Node) (x : Nat) (o : LabelOutcome) : sansLabel (joinOutcome n x o) = sansLabel n :=
  offerLabelled_sansLabel _ _

theorem joinOutcome_roll (n : Node) (x : Nat) (o : LabelOutcome) : (joinOutcome n x o).roll = n.roll := by
  have h := congrArg Node.roll (joinOutcome_sansLabel n x o)
  exact h

theorem Keeps.of_sansLabel {a b : Node} (h : sansLabel a = sansLabel b) (hq : QueueFits b → QueueFits a) : Keeps a b := by
  have he : a = { b with label := a.label, link := a.link } :=
    calc a = { sansLabel a with label := a.label, link := a.link } := rfl
      _ = { sansLabel b with label := a.label, link := a.link } := by rw [h]
  rw [he]
  exact ⟨hq, id, id, id, id, id⟩

theorem offerLabelled_keeps (n : Node) (o : OutcomeEntry) : Keeps (offerLabelled n o) n :=
  .of_sansLabel (offerLabelled_sansLabel n o) (offerLabelled_queue n o)

theorem joinOutcome_keeps (n : Node) (x : Nat) (o : LabelOutcome) : Keeps (joinOutcome n x o) n :=
  (offerLabelled_keeps _ _).trans (.of_extent rfl)

theorem setDisposition_keeps (n : Node) (x : Nat) (d : Disposition) : Keeps (setDisposition n x d) n := .of_extent rfl
theorem dropDisposition_keeps (n : Node) (x : Nat) : Keeps (dropDisposition n x) n := .of_extent rfl
theorem dropOutcome_keeps (n : Node) (k : Nat) : Keeps (dropOutcome n k) n := .of_extent rfl
theorem removeLabel_keeps (n : Node) (x : Nat) : Keeps (removeLabel n x) n := .of_extent rfl
theorem setGate_keeps (n : Node) (g : Gate) : Keeps (setGate n g) n := .of_extent rfl

theorem decideEntry_keeps (n : Node) (x : Nat) (o : LabelOutcome) : Keeps (decideEntry n x o) n :=
  (joinOutcome_keeps _ _ _).trans (setDisposition_keeps n _ _)

/-- R177: the list that the LABEL node leaves when its oldest entry goes. -/
theorem labelMakesRoom_list (n : Node) (c : RollContent) (rest : List RollContent) :
    (labelMakesRoom n c rest).roll.list = rest := by
  unfold labelMakesRoom
  dsimp only
  split
  · rw [joinOutcome_roll]; rfl
  · rw [joinOutcome_roll]; rfl
  · rfl

theorem labelMakesRoom_keeps (n : Node) (c : RollContent) (rest : List RollContent) (h : rest.length ≤ n.roll.list.length) :
    Keeps (labelMakesRoom n c rest) n := by
  have hr : Keeps { n with roll := { n.roll with list := rest } } n := .of_roll n _ h
  have hd := (dropDisposition_keeps _ c.number).trans hr
  unfold labelMakesRoom
  dsimp only
  split
  · exact (joinOutcome_keeps _ _ _).trans hd
  · exact (joinOutcome_keeps _ _ _).trans ((removeLabel_keeps _ _).trans hd)
  · exact hd

theorem roomForRoll_keeps (n : Node) : Keeps (roomForRoll n) n := by
  unfold roomForRoll
  split
  · next c rest hl =>
    have hle : rest.length ≤ n.roll.list.length := by rw [hl]; exact Nat.le_succ _
    split
    · exact .self n
    · split
      · exact labelMakesRoom_keeps n c rest hle
      · exact .of_roll n _ hle
  · exact .self n

/-- R171: after `roomForRoll` a list of at most 16 entries has room for one more. -/
theorem roomForRoll_room (n : Node) (h : n.roll.list.length ≤ 16) : (roomForRoll n).roll.list.length < 16 := by
  unfold roomForRoll
  split
  · next c rest hl =>
    rw [hl] at h
    simp only [List.length_cons] at h
    split
    · assumption
    · split
      · rw [labelMakesRoom_list]; omega
      · exact h
  · next hl => rw [hl]; decide

theorem awaitArrival_keeps (n : Node) (x : Nat) : Keeps (awaitArrival n x) n := by
  unfold awaitArrival
  split
  · exact setDisposition_keeps n _ _
  · exact .self n

theorem storeRoll_keeps (n : Node) (p : RollContent) : Keeps (storeRoll n p) n := by
  unfold storeRoll
  split
  · exact .of_roll n _ (Nat.le_of_eq (List.length_map ..))
  · have hk := roomForRoll_keeps n
    refine (awaitArrival_keeps _ _).trans ⟨hk.queue, hk.web, hk.peers, hk.table, hk.triggers, fun hb => ?_⟩
    refine ⟨(hk.stores hb).1, ?_⟩
    have hroom := roomForRoll_room n hb.2
    simp only [List.length_append, List.length_singleton]
    omega

theorem applyRoll_keeps (n : Node) (s : Nat) (re rg : Bool) (p : RollContent) : Keeps (applyRoll n s re rg p) n := by
  have h1 : Keeps (retireRun (storeRoll n p) p.first p.count) n := (retireRun_keeps _ _ _).trans (storeRoll_keeps n p)
  unfold applyRoll
  split
  · exact .self n
  · split
    · split
      · exact .of_extent rfl
      · exact .self n
    · split
      · exact .self n
      · refine (retireHolds_keeps _ _).trans ?_
        split
        · exact h1
        · exact (rollClears_keeps _ _).trans h1

theorem applyLabelled_keeps (n : Node) (s x : Nat) (o : LabelOutcome) : Keeps (applyLabelled n s x o) n := by
  unfold applyLabelled
  split
  · exact (dropDisposition_keeps _ _).trans (.of_roll n _ (List.length_filter_le _ _))
  · exact .self n

theorem sendBlock_keeps (n : Node) : Keeps (sendBlock n) n := by
  unfold sendBlock
  split
  · exact .of_extent rfl
  · exact .self n

theorem endPrint_keeps (n : Node) : Keeps (endPrint n) n := by
  unfold endPrint
  dsimp only
  split
  · exact .of_extent rfl
  · split
    · exact .of_extent rfl
    · exact (decideEntry_keeps _ _ _).trans (.of_extent rfl)

theorem readyFall_keeps (n : Node) : Keeps (readyFall n) n := by
  unfold readyFall
  split
  · exact .of_extent rfl
  · exact .self n

theorem readyRise_keeps (n : Node) : Keeps (readyRise n) n := by
  unfold readyRise
  split
  · exact .self n
  · dsimp only
    split
    · exact .of_extent rfl
    · split
      · exact (holdSettle_keeps _).trans ((endPrint_keeps _).trans (.of_extent rfl))
      · exact .of_extent rfl
    · exact .of_extent rfl

theorem failLabels_keeps (l : List Label) (n : Node) : Keeps (failLabels l n) n := by
  induction l generalizing n with
  | nil => exact .self n
  | cons x xs ih => exact (ih _).trans (decideEntry_keeps n _ _)

theorem printTimer_keeps (n : Node) : Keeps (printTimer n) n := by
  unfold printTimer
  split
  · exact (failLabels_keeps _ _).trans (.of_extent rfl)
  · exact .self n

theorem readyTimer_keeps (n : Node) : Keeps (readyTimer n) n := by
  unfold readyTimer
  split
  · exact (sendBlock_keeps _).trans (.of_extent rfl)
  · exact .self n

theorem applyPulseEnd_keeps (n : Node) : Keeps (applyPulseEnd n) n := by
  unfold applyPulseEnd
  split
  · exact (sendBlock_keeps _).trans (.of_extent rfl)
  · exact .self n

theorem decideArrival_keeps (n : Node) : Keeps (decideArrival n) n := by
  have hd : ∀ g x o, Keeps (decideEntry (setGate n g) x o) n := fun g x o =>
    (decideEntry_keeps _ _ _).trans (setGate_keeps n g)
  unfold decideArrival
  split
  · exact (joinOutcome_keeps _ _ _).trans (setGate_keeps n _)
  · split
    · exact hd _ _ _
    · split
      · exact hd _ _ _
      · split
        · exact hd _ _ _
        · exact (sendBlock_keeps _).trans (.of_extent rfl)

theorem arrival_keeps (n : Node) : Keeps (arrival n) n := by
  unfold arrival
  split
  · dsimp only
    split
    · exact (holdSettle_keeps _).trans ((decideArrival_keeps _).trans (.of_extent rfl))
    · exact (setGate_keeps _ _).trans (.of_extent rfl)
  · exact .self n

theorem sensorClear_keeps (n : Node) : Keeps (sensorClear n) n := by
  unfold sensorClear
  split
  · exact .of_extent rfl
  · exact .self n

theorem arriveEdge_keeps (b : Bool) (n : Node) : Keeps (arriveEdge b n) n := by
  unfold arriveEdge
  dsimp only
  split
  · exact .of_extent rfl
  · exact .of_extent rfl

theorem rollDeadline_keeps (x : Nat) (n : Node) : Keeps (rollDeadline x n) n := by
  unfold rollDeadline
  split
  · split
    · exact decideEntry_keeps n _ _
    · exact .self n
  · exact .self n

/-! ### The batch list and the restates -/

theorem formMean_keeps (n : Node) (m : Triple) : Keeps (formMean n m) n := .of_shade (formMean_shadeKeeps n m)

theorem setOwnBatch_keeps (n : Node) (p : BatchPayload) : Keeps (setOwnBatch n p) n := by
  unfold setOwnBatch
  dsimp only
  refine (Keeps.foldl (fun m g => ?_) _ _).trans (.of_extent rfl)
  split
  · exact formMean_keeps m _
  · exact .self m

theorem recodeRecords_keeps (n : Node) (r c : Nat) : Keeps (recodeRecords n r c) n :=
  .of_le (Nat.le_refl _) (Nat.le_of_eq (List.length_map ..)) (Nat.le_refl _) (Nat.le_refl _) (Nat.le_refl _) rfl rfl rfl rfl

theorem newBatch_keeps (n : Node) (own : Bool) (p : BatchPayload) : Keeps (newBatch n own p) n := by
  have h2 := (recodeRecords_keeps n p.first p.code).same (a := { recodeRecords n p.first p.code with
    batch := { (recodeRecords n p.first p.code).batch with
      list := closeBatches (roomForBatch n.batch.list) p.first ++
        [{ code := p.code, first := p.first, last := none, reference := none, state := .forming }] } }) rfl
  unfold newBatch
  dsimp only
  refine (rollBatch_keeps _ _ _).trans ?_
  split
  · exact (setOwnBatch_keeps _ _).trans h2
  · exact h2

theorem applyBatchOpened_keeps (n : Node) (s : Nat) (re own : Bool) (p : BatchPayload) :
    Keeps (applyBatchOpened n s re own p) n := by
  unfold applyBatchOpened
  split
  · exact .self n
  · split
    · dsimp only
      split
      · exact .of_extent rfl
      · exact .self n
    · split
      · exact .self n
      · exact newBatch_keeps n own p

theorem applyBatchFixed_keeps (n : Node) (s : Nat) (p : BatchPayload) (t : Triple) : Keeps (applyBatchFixed n s p t) n := by
  unfold applyBatchFixed
  dsimp only
  split
  · exact .of_extent rfl
  · exact .self n

theorem offerResume_keeps (n : Node) : Keeps (offerResume n) n := offerAgain_keeps n _ _ _ _

theorem nextRestateBatch_keeps (n : Node) : Keeps (nextRestateBatch n) n := by
  unfold nextRestateBatch
  split
  · exact .self n
  · dsimp only
    split
    · exact .of_extent rfl
    · exact (offerAgain_keeps _ _ _ _ _).trans (.of_extent rfl)

theorem nextRestateHold_keeps (n : Node) : Keeps (nextRestateHold n) n := by
  unfold nextRestateHold
  split
  · exact .self n
  · split
    · exact .of_extent rfl
    · exact (offerAgain_keeps _ _ _ _ _).trans (.of_extent rfl)

theorem nextRestateRoll_keeps (n : Node) : Keeps (nextRestateRoll n) n := by
  unfold nextRestateRoll
  split
  · exact .self n
  · dsimp only
    split
    · exact .of_extent rfl
    · exact (offerAgain_keeps _ _ _ _ _).trans (.of_extent rfl)

theorem endRestateBatch_keeps (n : Node) : Keeps (endRestateBatch n) n := (nextRestateBatch_keeps _).trans (.of_extent rfl)
theorem endRestateHold_keeps (n : Node) : Keeps (endRestateHold n) n := (nextRestateHold_keeps _).trans (.of_extent rfl)
theorem endRestateRoll_keeps (n : Node) : Keeps (endRestateRoll n) n := (nextRestateRoll_keeps _).trans (.of_extent rfl)

theorem startRestates_keeps (n : Node) : Keeps (startRestates n) n := by
  unfold startRestates
  split
  · exact .self n
  · exact (nextRestateRoll_keeps _).trans ((nextRestateHold_keeps _).trans ((nextRestateBatch_keeps _).trans (.of_extent rfl)))

/-! ### Leaving JOINED, muting, the peers and the resets -/

theorem blocksLeave_keeps (n : Node) : Keeps (blocksLeave n) n := by
  have hif : ∀ (b : Bool) (f : Node → Node) (m : Node), (∀ k, Keeps (f k) k) → Keeps m n → Keeps (if b then f m else m) n := by
    intro b f m hf hm
    split
    · exact (hf m).trans hm
    · exact hm
  have h1 := (nipLeave_keeps _).trans ((loopToOpen_keeps _).trans (jobLeave_keeps n))
  have h2 := hif (isRole n .shade) resetShadeUnit _ resetShadeUnit_keeps h1
  have h3 := hif (isRole n .rewind) rollLeave _ rollLeave_keeps h2
  have h4 := hif (isRole n .label) labelLeave _ (fun _ => .of_extent rfl) h3
  exact (hif (holdRole n) resetHoldUnit _ resetHoldUnit_keeps h4).same rfl

theorem leaveTo_keeps (n : Node) (st : NodeState) : Keeps (leaveTo n st) n := by
  unfold leaveTo
  dsimp only
  split
  · exact (blocksLeave_keeps _).trans (setState_keeps n st)
  · exact setState_keeps n st

theorem emptyQueue_keeps (n : Node) : Keeps (emptyQueue n) n := by
  have h : Keeps { n with link := { n.link with
      queue := [], attempts := 0, sending := false, stopped := false, refusedOffers := [] } } n :=
    .of_le (Nat.zero_le _) (Nat.le_refl _) (Nat.le_refl _) (Nat.le_refl _) (Nat.le_refl _) rfl rfl rfl rfl
  unfold emptyQueue
  dsimp only
  split
  · exact (endRequest_keeps _ _).trans h
  · exact h

theorem goDown_keeps (n : Node) : Keeps (goDown n) n := (leaveTo_keeps n .down).same rfl

theorem mute_keeps (n : Node) (c : MuteCause) : Keeps (mute n c) n := by
  have h3 := ((leaveTo_keeps _ .muted).trans (emptyQueue_keeps n)).same (a :=
    { leaveTo (emptyQueue n) .muted with
      muteCause := some c, link := { (leaveTo (emptyQueue n) .muted).link with goodRun := 0, sendElapsed := none } }) rfl
  unfold mute
  dsimp only
  split
  · exact (goDown_keeps _).trans ((emptyQueue_keeps n).same rfl)
  · split
    · exact (attend_keeps _ _).trans h3
    · exact h3

theorem setPeer_keeps (n : Node) (k : Nat) (p : Peer) : Keeps (setPeer n k p) n := by
  have hl := setPeer_length n k p
  rw [setPeer_eq]
  exact .of_le (Nat.le_refl _) (Nat.le_refl _) (Nat.le_refl _) (Nat.le_refl _) (Nat.le_refl _) hl rfl rfl rfl

theorem peerFrame_keeps (n : Node) (s : Nat) (t : Telegram) : Keeps (peerFrame n s t) n := by
  unfold peerFrame
  split
  · exact .self n
  · split
    · exact .self n
    · exact setPeer_keeps n _ _

/-- R22: benching makes no queue longer. -/
theorem benchQueue_length (b : Bool) (q : List QEntry) : (benchQueue b q).length ≤ q.length := by
  unfold benchQueue
  dsimp only
  split
  · exact Nat.le_refl _
  · split
    · exact Nat.succ_le_succ (List.length_filter_le _ _)
    · exact Nat.le_succ_of_le (List.length_filter_le _ _)

theorem benchSelf_keeps (n : Node) : Keeps (benchSelf n) n := by
  have hq : ∀ (m : Node) (k : Nat),
      Keeps { m with link := { m.link with queue := benchQueue m.link.sending m.link.queue, attempts := k } } m := fun m k =>
    .of_le (benchQueue_length _ _) (Nat.le_refl _) (Nat.le_refl _) (Nat.le_refl _) (Nat.le_refl _) rfl rfl rfl rfl
  have h1 : Keeps (closeHoldOf (leaveTo { n with benchMark := true } .benched) (cfg n).station) n :=
    (closeHoldOf_keeps _ _).trans ((leaveTo_keeps _ _).trans (.of_extent rfl))
  have h3 := fun p k => (hq _ k).trans ((setPeer_keeps _ (cfg n).station p).trans h1)
  unfold benchSelf
  exact Keeps.ite ((endRequest_keeps _ _).trans (h3 _ _)) (h3 _ _)

theorem benchStation_keeps (n : Node) (s : Nat) : Keeps (benchStation n s) n := by
  unfold benchStation
  split
  · split
    · exact benchSelf_keeps n
    · exact .self n
  · exact (closeHoldOf_keeps _ _).trans (setPeer_keeps n _ _)

theorem checkConflict_keeps (n : Node) (j : Nat) : Keeps (checkConflict n j) n :=
  Keeps.foldl (f := fun m k => benchStation m (max j k)) (fun m k => benchStation_keeps m (max j k)) _ n

theorem applyJoin_keeps (n : Node) (s : Nat) (p : JoinPayload) : Keeps (applyJoin n s p) n := by
  unfold applyJoin
  split
  · exact (checkConflict_keeps _ _).trans ((setPeer_keeps _ _ _).trans (closeHoldOf_keeps n s))
  · exact (startRestates_keeps _).trans ((offerResume_keeps _).trans ((checkConflict_keeps _ _).trans
      ((closeHoldOf_keeps _ _).trans (setPeer_keeps n _ _))))

theorem resumeNumbers_keeps (n : Node) (p : ResumePayload) : Keeps (resumeNumbers n p) n := by
  unfold resumeNumbers
  cases p.job with
  | none => exact .of_extent rfl
  | some j => exact Keeps.ite (Keeps.trans (giveJob_keeps _ j) (.of_extent rfl)) (.of_extent rfl)

theorem recordRole_keeps (n : Node) (s : Nat) (r : Role) (c : Nat) : Keeps (recordRole n s r c) n := by
  unfold recordRole
  split
  · exact .self n
  · exact (checkConflict_keeps _ _).trans (setPeer_keeps n _ _)

theorem applyResume_keeps (n : Node) (s : Nat) (p : ResumePayload) : Keeps (applyResume n s p) n := by
  unfold applyResume
  dsimp only
  split
  · exact (resumeNumbers_keeps _ _).trans (recordRole_keeps n _ _ _)
  · exact recordRole_keeps n _ _ _

theorem applyDown_keeps (n : Node) (s : Nat) (c : ResetCause) : Keeps (applyDown n s c) n := by
  unfold applyDown
  split
  · exact .self n
  · exact setPeer_keeps n _ _

theorem peerSilenceW_keeps (s : Nat) (n : Node) : Keeps (peerSilenceW s n) n := by
  unfold peerSilenceW
  dsimp only
  split
  · exact setPeer_keeps n _ _
  · exact .self n

theorem peerSilence2W_keeps (s : Nat) (n : Node) : Keeps (peerSilence2W s n) n := by
  unfold peerSilence2W
  dsimp only
  split
  · exact (holdSettle_keeps _).trans (setPeer_keeps n _ _)
  · exact .self n

theorem placeDown_length (q : List QEntry) : (placeDown q).length = q.length + 1 := by
  cases q <;> rfl

/-- R32: a DOWN is placed where there is room, in the place of a ROUTINE entry, or in that of the tail. -/
theorem offerDown_keeps (n : Node) : Keeps (offerDown n) n := by
  have hq : ∀ l : Link, (n.link.queue.length ≤ 16 → l.queue.length ≤ 16) → Keeps { n with link := l } n := fun l hl =>
    ⟨hl, id, id, id, id, id⟩
  unfold offerDown
  dsimp only
  split
  · next h => exact hq _ fun _ => by dsimp only; rw [placeDown_length]; omega
  · next h =>
    split
    · next r hr =>
      have := evictRoutine_length _ _ hr
      exact hq _ fun _ => by dsimp only; rw [placeDown_length]; omega
    · have hd : Keeps { n with link := { n.link with
          queue := placeDown n.link.queue.dropLast, dropped := n.link.dropped + 1 } } n :=
        hq _ fun _ => by dsimp only; rw [placeDown_length, List.length_dropLast]; omega
      split
      · exact (endRequest_keeps _ _).trans hd
      · exact hd

theorem warnSupply_keeps (n : Node) : Keeps (warnSupply n) n := by
  unfold warnSupply
  split
  · exact .self n
  · split
    · exact .self n
    · exact offerDown_keeps n
  · exact goDown_keeps n

theorem supplyWarning_keeps (n : Node) : Keeps (supplyWarning n) n := by
  unfold supplyWarning
  split
  · exact .self n
  · dsimp only
    split
    · exact .of_extent rfl
    · exact (warnSupply_keeps _).trans (.of_extent rfl)

/-- R190: a reset leaves every store empty, with no debt and no mark. -/
theorem resetNode_keeps (n : Node) (c : ResetCause) : Keeps (resetNode n c) n :=
  ⟨fun _ => Nat.zero_le _, fun _ => ⟨⟨Nat.zero_le _, Nat.zero_le _⟩, fun _ => rfl⟩, fun _ => List.length_replicate,
    fun _ => Nat.zero_le _, fun _ => Nat.zero_le _, fun _ => ⟨Nat.zero_le _, Nat.zero_le _⟩⟩

theorem endReset_keeps (n : Node) : Keeps (endReset n) n := by
  unfold endReset
  split
  · exact warnSupply_keeps n
  · exact .self n

theorem powerReset_keeps (n : Node) : Keeps (powerReset n) n := by
  unfold powerReset
  dsimp only
  split
  · exact resetNode_keeps n _
  · exact (endReset_keeps _).trans (resetNode_keeps n _)

theorem pinReset_keeps (b : Bool) (n : Node) : Keeps (pinReset b n) n := by
  unfold pinReset
  split
  · exact (resetNode_keeps _ _).trans (.of_extent rfl)
  · split
    · exact (endReset_keeps _).trans (.of_extent rfl)
    · exact .self n

theorem supplyRecovery_keeps (n : Node) : Keeps (supplyRecovery n) n := by
  unfold supplyRecovery
  split
  · exact resetNode_keeps n _
  · exact .self n

theorem enterListening_keeps (n : Node) : Keeps (enterListening n) n := (setState_keeps n .listening).same rfl

/-- R28: a rejoin empties the stores; the debt and the speed stay, and no mark is in progress. -/
theorem rejoinBlocks_keeps (n : Node) : Keeps (rejoinBlocks n) n :=
  ⟨fun _ => Nat.zero_le _, fun h => ⟨h.1, fun _ => rfl⟩, fun _ => List.length_replicate, fun _ => Nat.zero_le _,
    fun _ => Nat.zero_le _, fun _ => ⟨Nat.zero_le _, Nat.zero_le _⟩⟩

theorem rejoinNode_keeps (n : Node) : Keeps (rejoinNode n) n := by
  rw [rejoinNode_eq]
  exact ((enterListening_keeps _).trans (rejoinBlocks_keeps n)).same rfl

/-! ### The line link -/

theorem raiseNumbers_queue (l : Link) (t : Telegram) : (raiseNumbers l t).queue = l.queue := by
  cases t <;> rfl

theorem applyJobTaken_keeps (n : Node) (s : Nat) (p : JobPayload) : Keeps (applyJobTaken n s p) n := by
  unfold applyJobTaken
  refine (answerJob_keeps _ _ _).trans ?_
  split
  · exact giveJob_keeps n _
  · exact .self n

theorem applyRequest_keeps (n : Node) (s : Nat) (k : RequestKind) (a : Nat) : Keeps (applyRequest n s k a) n := by
  cases k with
  | newJob => exact newJobRequest_keeps n _
  | closeBatch => exact closeBatchRequest_keeps n
  | closeRoll => exact closeRollRequest_keeps n
  | holdOn => exact operatorRequest_keeps n a true
  | clearHold => exact operatorRequest_keeps n a false

theorem handOver_keeps (n : Node) (o : Origin) (own rg : Bool) (t : Telegram) : Keeps (handOver n o own rg t) n := by
  cases t with
  | join p => exact applyJoin_keeps n _ p
  | resume p => exact applyResume_keeps n _ p
  | present => exact .self n
  | down c => exact applyDown_keeps n _ c
  | request k a => exact applyRequest_keeps n _ k a
  | jobTaken p => exact applyJobTaken_keeps n _ p
  | jobRefused p => exact answerJob_keeps n _ _
  | repeat_ p => exact appendRepeat_keeps n _ p
  | register p => exact applyRegister_keeps n _ p
  | shade p => exact applyShade_keeps n _ p
  | batchOpened p => exact applyBatchOpened_keeps n _ _ _ p
  | batchFixed p t => exact applyBatchFixed_keeps n _ p t
  | holdSet x c => exact applyHoldSet_keeps n _ x c
  | holdClear x c => exact applyHoldClear_keeps n _ x
  | roll p => exact applyRoll_keeps n _ _ _ p
  | labelled x out => exact applyLabelled_keeps n _ x out
  | undefined p => exact .self n

theorem applyFrame_keeps (n : Node) (o : Origin) (own rg : Bool) (t : Telegram) : Keeps (applyFrame n o own rg t) n := by
  refine (handOver_keeps _ o own rg t).trans (Keeps.trans ?_ (peerFrame_keeps n o.sender t))
  refine .of_extent ?_
  simp only [extent, raiseNumbers_queue]

theorem completeHold_keeps (n : Node) : Keeps (completeHold n) n := by
  unfold completeHold
  dsimp only
  split
  · exact .of_extent rfl
  · exact (holdOfferWanted_keeps _).trans (.of_extent rfl)

theorem offerCompleted_keeps (n : Node) (e : QEntry) : Keeps (offerCompleted n e) n := by
  unfold offerCompleted
  split
  · exact endRequest_keeps n _
  · exact (takeHeld_keeps _).trans (.of_extent rfl)
  · exact .of_extent rfl
  · exact completeHold_keeps n
  · exact endRestateBatch_keeps n
  · exact endRestateHold_keeps n
  · exact endRestateRoll_keeps n
  · split
    · exact .of_extent rfl
    · exact .self n
  · exact dropOutcome_keeps n _
  · exact .self n

theorem reofferOpened_keeps (n : Node) (p : BatchPayload) : Keeps (reofferOpened n p) n := by
  unfold reofferOpened
  split
  · exact offerAgain_keeps n _ _ _ _
  · exact .of_extent rfl

theorem reofferFixed_keeps (n : Node) (p : BatchPayload) (t : Triple) (a : Option Nat) : Keeps (reofferFixed n p t a) n := by
  unfold reofferFixed
  split
  · exact offerAgain_keeps n _ _ _ _
  · exact .self n

theorem reofferLabelled_keeps (n : Node) (o : OutcomeEntry) : Keeps (reofferLabelled n o) n := by
  unfold reofferLabelled
  split
  · exact dropOutcome_keeps n _
  · split
    · exact offerLabelled_keeps n o
    · exact .self n

theorem dropHold_keeps (n : Node) : Keeps (dropHold n) n := by
  have h : Keeps (endHoldOffer n) n := .of_extent rfl
  unfold dropHold
  dsimp only
  split
  · exact (holdOfferWanted_keeps _).trans ((holdAbsorb_keeps _).trans h)
  · exact h

theorem offerDropped_keeps (n : Node) (e : QEntry) : Keeps (offerDropped n e) n := by
  unfold offerDropped
  split
  · exact offerResume_keeps n
  · exact endRequest_keeps n _
  · exact offerJob_keeps n
  · exact reofferOpened_keeps n _
  · exact reofferFixed_keeps n _ _ _
  · exact dropHold_keeps n
  · exact endRestateBatch_keeps n
  · exact endRestateHold_keeps n
  · exact endRestateRoll_keeps n
  · exact offerRoll_keeps n _
  · exact offerRegrade_keeps n _ _
  · exact reofferLabelled_keeps n _
  · exact .self n

theorem reoffer_keeps (n : Node) (r : Reoffer) : Keeps (reoffer n r) n := by
  cases r with
  | resume => exact offerResume_keeps n
  | job => exact offerJob_keeps n
  | opened p => exact reofferOpened_keeps n p
  | fixed p t a => exact reofferFixed_keeps n p t a
  | hold =>
    unfold reoffer
    dsimp only
    split
    · exact (holdOfferWanted_keeps _).trans (.of_extent rfl)
    · exact .of_extent rfl
  | restateBatch => exact endRestateBatch_keeps n
  | restateHold => exact endRestateHold_keeps n
  | restateRoll => exact endRestateRoll_keeps n
  | roll x => exact offerRoll_keeps n x
  | regrade x ch => exact offerRegrade_keeps n x ch
  | labelled o => exact reofferLabelled_keeps n o

theorem offerJoin_keeps (n : Node) : Keeps (offerJoin n) n := (enqueue_keeps _ _ _ _).trans (setState_keeps n _)

theorem listenEnd_keeps (n : Node) : Keeps (listenEnd n) n := by
  unfold listenEnd
  split
  · exact offerJoin_keeps n
  · exact .self n

theorem listenTimer_keeps (n : Node) : Keeps (listenTimer n) n := by
  unfold listenTimer
  split
  · dsimp only
    split
    · exact (offerJoin_keeps _).trans (.of_extent rfl)
    · exact .of_extent rfl
  · exact .self n

theorem listenSilence_keeps (n : Node) : Keeps (listenSilence n) n := by
  unfold listenSilence
  split
  · exact offerJoin_keeps n
  · exact .self n

theorem joinCompletes_keeps (n : Node) : Keeps (joinCompletes n) n := (setState_keeps n _).same rfl

theorem resumeWindowClose_keeps (n : Node) : Keeps (resumeWindowClose n) n := by
  unfold resumeWindowClose
  split
  · dsimp only
    split
    · exact (holdSettle_keeps _).trans ((takeHeld_keeps _).trans ((holdStart_keeps _).trans ((rollStart_keeps _).trans
        ((batchStart_keeps _).trans ((keyStart_keeps _).trans (.of_extent rfl))))))
    · exact .of_extent rfl
  · exact .self n

theorem dequeue_keeps (n : Node) : Keeps (dequeue n) n :=
  .of_le (by simp [dequeue]) (Nat.le_refl _) (Nat.le_refl _) (Nat.le_refl _) (Nat.le_refl _) rfl rfl rfl rfl

theorem countDropped_keeps (n : Node) : Keeps (countDropped n) n := .of_extent rfl

theorem dropTelegram_keeps (n : Node) (e : QEntry) : Keeps (dropTelegram n e) n := by
  have h1 := (countDropped_keeps _).trans (dequeue_keeps n)
  unfold dropTelegram
  dsimp only
  split
  · exact (goDown_keeps _).trans h1
  · split
    · exact (enterListening_keeps _).trans h1
    · split
      · exact h1
      · exact (offerDropped_keeps _ e).trans ((raiseLinkFault_keeps _).trans h1)

theorem attemptEnds_keeps (n : Node) : Keeps (attemptEnds n) n := by
  have h1 : Keeps { n with link := { n.link with sending := false, stopped := false, ownRun := 0 } } n := .of_extent rfl
  unfold attemptEnds
  dsimp only
  split
  · exact h1
  · split
    · split
      · exact (endRequest_keeps _ _).trans ((dequeue_keeps _).trans h1)
      · exact (dequeue_keeps _).trans h1
    · split
      · exact (offerDropped_keeps _ _).trans ((countDropped_keeps _).trans ((dequeue_keeps _).trans h1))
      · split
        · exact h1.same rfl
        · exact (dropTelegram_keeps _ _).trans h1

theorem countVoidRun_keeps (n : Node) : Keeps (countVoidRun n) n := by
  unfold countVoidRun
  split
  · exact .of_extent rfl
  · exact .self n

theorem muteVoiding_keeps (n : Node) : Keeps (muteVoiding n) n := by
  unfold muteVoiding
  split
  · exact mute_keeps n _
  · exact .self n

theorem clearFrame_keeps (n : Node) : Keeps (clearFrame n) n := .of_extent rfl
theorem hearEnd_keeps (n : Node) : Keeps (hearEnd n) n := .of_extent rfl
theorem countSeen_keeps (n : Node) : Keeps (countSeen n) n := .of_extent rfl
theorem badEnd_keeps (n : Node) : Keeps (badEnd n) n := .of_extent rfl

theorem failedEnd_keeps (n : Node) (mine : Bool) : Keeps (failedEnd n mine) n := by
  have h1 := (badEnd_keeps _).trans ((countSeen_keeps _).trans (hearEnd_keeps n))
  unfold failedEnd
  refine (holdSettle_keeps _).trans ((clearFrame_keeps _).trans ((listenEnd_keeps _).trans ?_))
  cases mine with
  | true => exact (attemptEnds_keeps _).trans h1
  | false => exact (muteVoiding_keeps _).trans ((countVoidRun_keeps _).trans h1)

theorem frameVoided_keeps (s : Nat) (n : Node) : Keeps (frameVoided s n) n := by
  unfold frameVoided
  split
  · exact (failedEnd_keeps _ _).trans (.of_extent rfl)
  · exact .self n

theorem frameCutShort_keeps (n : Node) : Keeps (frameCutShort n) n := by
  unfold frameCutShort
  split
  · exact failedEnd_keeps n _
  · exact .self n

theorem frameCheck_keeps (bits : List Bool) (n : Node) : Keeps (frameCheck bits n) n := by
  unfold frameCheck
  split
  · exact .self n
  · split
    · exact .of_extent rfl
    · split
      · exact .of_extent rfl
      · exact .of_extent rfl

theorem senderBitDifference_keeps (b : Bool) (n : Node) : Keeps (senderBitDifference b n) n := by
  unfold senderBitDifference
  split
  · split
    · exact (mute_keeps n .clash).same rfl
    · exact .of_extent rfl
  · exact .self n

theorem clashMarkDetected_keeps (n : Node) : Keeps (clashMarkDetected n) n := by
  unfold clashMarkDetected
  split
  · exact mute_keeps n _
  · exact .self n

theorem lineStuck_keeps (b : Bool) (n : Node) : Keeps (lineStuck b n) n := by
  unfold lineStuck
  split
  · have h1 : Keeps (raiseLinkFault { n with link := { n.link with
        stuck := true, slot := none, sending := false, stopped := false } }) n := .of_extent rfl
    have hm := (badEnd_keeps _).trans ((countSeen_keeps _).trans ((hearEnd_keeps _).trans h1))
    refine (holdSettle_keeps _).trans ?_
    cases b with
    | false => exact h1
    | true =>
      refine (clearFrame_keeps _).trans ((listenEnd_keeps _).trans ?_)
      split
      · exact hm
      · exact (muteVoiding_keeps _).trans ((countVoidRun_keeps _).trans hm)
  · exact .self n

theorem clearQueue_keeps (n : Node) : Keeps (clearQueue n) n := by
  unfold clearQueue
  split
  · exact .self n
  · have hq : ∀ k, Keeps { n with link := { n.link with queue := n.link.queue.filter (staysQueued n), attempts := k } } n :=
      fun k => .of_le (List.length_filter_le _ _) (Nat.le_refl _) (Nat.le_refl _) (Nat.le_refl _) (Nat.le_refl _) rfl rfl rfl rfl
    dsimp only
    split
    · exact (endRequest_keeps _ _).trans (hq _)
    · exact hq _

theorem lineIdle_keeps (n : Node) : Keeps (lineIdle n) n := by
  unfold lineIdle
  split
  · exact (clearQueue_keeps _).trans (.of_extent rfl)
  · exact .self n

theorem slotStart_keeps (n : Node) : Keeps (slotStart n) n := by
  unfold slotStart
  split
  · exact .self n
  · split
    · exact .self n
    · exact Keeps.ite (.of_extent rfl) (.of_extent rfl)

theorem sendTimer_keeps (n : Node) : Keeps (sendTimer n) n := by
  unfold sendTimer
  split
  · exact .self n
  · split
    · dsimp only
      split
      · exact .of_extent rfl
      · exact (offerPlain_keeps n .present).same rfl
    · exact .self n

theorem ownCompletes_keeps (n : Node) : Keeps (ownCompletes n) n :=
  .of_le (by simp [ownCompletes]) (Nat.le_refl _) (Nat.le_refl _) (Nat.le_refl _) (Nat.le_refl _) rfl rfl rfl rfl

theorem countCompleted_keeps (n : Node) : Keeps (countCompleted n) n := by
  unfold countCompleted
  split
  · exact .of_extent rfl
  · exact .self n

theorem completeOwn_keeps (n : Node) (o : Origin) (t : Telegram) (e : QEntry) : Keeps (completeOwn n o t e) n := by
  have h2 : Keeps (countCompleted (if isJoin t then joinCompletes (ownCompletes n) else ownCompletes n)) n := by
    refine (countCompleted_keeps _).trans ?_
    split
    · exact (joinCompletes_keeps _).trans (ownCompletes_keeps n)
    · exact ownCompletes_keeps n
  have h3 : ∀ (m : Node) (rg : Bool), Keeps m n → Keeps (if appliesFrames m then applyFrame m o true rg t else m) n := by
    intro m rg hm
    split
    · exact (applyFrame_keeps _ _ _ _ _).trans hm
    · exact hm
  unfold completeOwn
  dsimp only
  split
  · exact (goDown_keeps _).trans ((offerCompleted_keeps _ e).trans (h3 _ _ h2))
  · exact (Keeps.foldl reoffer_keeps _ _).trans ((offerCompleted_keeps _ e).trans (h3 _ _ h2))

theorem clashSecond_keeps (n : Node) (s : Nat) : Keeps (clashSecond n s) n := by
  unfold clashSecond
  split
  · exact mute_keeps n _
  · exact .self n

theorem goodFrame_keeps (b n : Node) : Keeps (goodFrame b n) n := by
  unfold goodFrame
  split
  · split
    · exact badEnd_keeps n
    · split
      · exact .of_extent rfl
      · exact rejoinNode_keeps n
  · exact .self n

theorem completeOther_keeps (n : Node) (o : Origin) (t : Telegram) : Keeps (completeOther n o t) n := by
  have h1 := (countVoidRun_keeps _).trans (countCompleted_keeps n)
  unfold completeOther
  refine (goodFrame_keeps _ _).trans ((muteVoiding_keeps _).trans ((clashSecond_keeps _ _).trans ?_))
  split
  · exact (applyFrame_keeps _ _ _ _ _).trans h1
  · exact h1

theorem completeFrame_keeps (o : Origin) (t : Telegram) (n : Node) : Keeps (completeFrame o t n) n := by
  have h1 : Keeps (hearEnd { n with link := { n.link with w := o.sender } }) n := .of_extent rfl
  have h2 : Keeps (match isOwnFrame n o t, n.link.queue with
      | true, e :: _ => completeOwn (hearEnd { n with link := { n.link with w := o.sender } }) o t e
      | _, _ => completeOther (hearEnd { n with link := { n.link with w := o.sender } }) o t) n := by
    split
    · exact (completeOwn_keeps _ _ _ _).trans h1
    · exact (completeOther_keeps _ _ _).trans h1
  unfold completeFrame
  split
  · refine (holdSettle_keeps _).trans ((clearFrame_keeps _).trans ?_)
    dsimp only
    split
    · exact (listenEnd_keeps _).trans h2
    · exact h2
  · exact .self n

/-! ### Start-up, time and the port -/

theorem configurationLoadEnd_keeps (im : Image) (n : Node) : Keeps (configurationLoadEnd im n) n := by
  unfold configurationLoadEnd
  split
  · split
    · exact (setState_keeps _ _).trans (.of_extent rfl)
    · exact (enterListening_keeps _).trans (.of_extent rfl)
  · exact .self n

theorem tick_keeps (n : Node) : Keeps (tick n) n :=
  .of_le (Nat.le_refl _) (Nat.le_refl _) (Nat.le_refl _) (Nat.le_refl _) (Nat.le_refl _) (tickPeers_length n) rfl rfl rfl

theorem answer_keeps (n : Node) (st : Nat) (c : List ViewByte) : Keeps (answer n st c) n := .of_extent rfl

theorem readView_keeps (v : Node → List ViewByte) (n : Node) : Keeps (readView v n) n := by
  unfold readView
  split
  · exact answer_keeps n _ _
  · exact answer_keeps n _ _

theorem readTrackView_keeps (x : Nat) (n : Node) : Keeps (readTrackView x n) n := by
  unfold readTrackView
  split
  · exact answer_keeps n _ _
  · split
    · exact answer_keeps n _ _
    · exact answer_keeps n _ _

theorem unknownCommandByte_keeps (c : Nat) (n : Node) : Keeps (unknownCommandByte c n) n := by
  unfold unknownCommandByte
  split
  · exact .self n
  · exact answer_keeps n _ _

theorem acceptRequest_keeps (n : Node) (k : RequestKind) (a : Nat) : Keeps (acceptRequest n k a) n := by
  have h : ∀ m : Node, Keeps m n → Keeps (enqueue m (.request k a) false .request).1 n := fun m hm =>
    (enqueue_keeps m _ _ _).trans hm
  have h1 := h { n with port := { n.port with slot := .pending, kind := some k, arg := some a, answer := .none } }
    (.of_extent rfl)
  unfold acceptRequest
  dsimp only
  split
  · next m hm => rw [hm] at h1; exact h1
  · next m _ _ hm => rw [hm] at h1; exact (endRequest_keeps _ _).trans h1

theorem placeRequest_keeps (k : RequestKind) (a : Nat) (n : Node) : Keeps (placeRequest k a n) n := by
  unfold placeRequest
  split
  · exact answer_keeps n _ _
  · split
    · exact answer_keeps n _ _
    · split
      · exact answer_keeps n _ _
      · exact (holdSettle_keeps _).trans ((answer_keeps _ _ _).trans (acceptRequest_keeps n k a))

theorem placeInvalid_keeps (n : Node) : Keeps (placeInvalid n) n := by
  unfold placeInvalid
  split
  · exact answer_keeps n _ _
  · exact answer_keeps n _ _

/-! ### The step -/

theorem occur_keeps (c : Occasion) (n : Node) : Keeps (occur c n) n := by
  cases c with
  | encoder a b => exact encoderCount_keeps a b n
  | trailingEdge => exact markTrailingEdge_keeps n
  | embossIndex => exact embossIndex_keeps n
  | registerWindowEnd => exact registerWindowEnd_keeps n
  | trackerWindowEnd => exact trackerWindowEnd_keeps n
  | tallySpanEnd => exact tallySpanEnd_keeps n
  | cylinderIndex => exact cylinderIndex_keeps n
  | frameVoided s => exact frameVoided_keeps s n
  | frameCutShort => exact frameCutShort_keeps n
  | completed o t => exact completeFrame_keeps o t n

theorem namedCase_keeps (hit : Occasion → Node → Bool) (c : Occasion) (n : Node) : Keeps (namedCase hit c n) n := by
  unfold namedCase
  split
  · exact occur_keeps c n
  · exact .self n

/-- Every command keeps the bounds. -/
theorem meaning_keeps (c : Instr) (n : Node) : Keeps (meaning c n) n := by
  cases c with
  | encoderCount a b => exact encoderCount_keeps a b n
  | speedInterval => exact speedInterval_keeps n
  | standstillTimer => exact standstillTimer_keeps n
  | markLeadingEdge => exact markLeadingEdge_keeps n
  | markTrailingEdge => exact markTrailingEdge_keeps n
  | registerWindowEnd => exact registerWindowEnd_keeps n
  | stepTrainCompletion => exact stepTrainCompletion_keeps n
  | embossIndex => exact embossIndex_keeps n
  | tallySpanEnd => exact tallySpanEnd_keeps n
  | triggerFire => exact triggerFire_keeps n
  | cutPulseEnd => exact cutPulseEnd_keeps n
  | actuationCompletion => exact actuationCompletion_keeps n
  | coveragePassageEnd => exact coveragePassageEnd_keeps n
  | cylinderIndex => exact cylinderIndex_keeps n
  | spliceDetection => exact spliceDetection_keeps n
  | trackerWindowEnd => exact trackerWindowEnd_keeps n
  | lostHoldOffEnd => exact lostHoldOffEnd_keeps n
  | shadeSample codes => exact shadeSample_keeps codes n
  | calibrationEnd => exact calibrationEnd_keeps n
  | slotStart => exact slotStart_keeps n
  | frameCheck bits => exact frameCheck_keeps bits n
  | frameVoided sender => exact frameVoided_keeps sender n
  | frameCutShort => exact frameCutShort_keeps n
  | senderBitDifference b => exact senderBitDifference_keeps b n
  | clashMarkDetected => exact clashMarkDetected_keeps n
  | lineStuck b => exact lineStuck_keeps b n
  | lineIdle => exact lineIdle_keeps n
  | sendTimer => exact sendTimer_keeps n
  | listenTimer => exact listenTimer_keeps n
  | listenSilence => exact listenSilence_keeps n
  | resumeWindowClose => exact resumeWindowClose_keeps n
  | peerSilenceW x => exact peerSilenceW_keeps x n
  | peerSilence2W x => exact peerSilence2W_keeps x n
  | supplyWarning => exact supplyWarning_keeps n
  | supplyRecovery => exact supplyRecovery_keeps n
  | supwarnInactive => exact .of_extent rfl
  | powerReset => exact powerReset_keeps n
  | pinReset low => exact pinReset_keeps low n
  | configurationLoadEnd im => exact configurationLoadEnd_keeps im n
  | arriveEdge high => exact arriveEdge_keeps high n
  | arrival => exact arrival_keeps n
  | sensorClear => exact sensorClear_keeps n
  | readyFall => exact readyFall_keeps n
  | readyRise => exact readyRise_keeps n
  | printTimer => exact printTimer_keeps n
  | readyTimer => exact readyTimer_keeps n
  | applyPulseEnd => exact applyPulseEnd_keeps n
  | rollDeadline x => exact rollDeadline_keeps x n
  | readNode => exact (answer_keeps n 0 (viewNode n)).same rfl
  | readPeers => exact readView_keeps _ n
  | readRolls => exact readView_keeps _ n
  | readBatches => exact readView_keeps _ n
  | readHolds => exact readView_keeps _ n
  | readJob => exact readView_keeps _ n
  | readCounters => exact readView_keeps _ n
  | readTrack x => exact readTrackView_keeps x n
  | unknownCommand code => exact unknownCommandByte_keeps code n
  | placeNewJob a => exact placeRequest_keeps _ a n
  | placeCloseBatch a => exact placeRequest_keeps _ a n
  | placeCloseRoll a => exact placeRequest_keeps _ a n
  | placeHoldOn a => exact placeRequest_keeps _ a n
  | placeClearHold a => exact placeRequest_keeps _ a n
  | placeInvalidRequestKind k a => exact placeInvalid_keeps n
  | webReversedOnset => exact namedCase_keeps _ _ n
  | webReversedEnd => exact namedCase_keeps _ _ n
  | openRunReached => exact namedCase_keeps _ _ n
  | lockRunReached => exact namedCase_keeps _ _ n
  | unlockRunReached => exact namedCase_keeps _ _ n
  | absentRunReached => exact namedCase_keeps _ _ n
  | settleCountZero => exact namedCase_keeps _ _ n
  | tallySuspensionEnd => exact namedCase_keeps _ _ n
  | outsideRunReached => exact namedCase_keeps _ _ n
  | insideRunReached => exact namedCase_keeps _ _ n
  | alignCountReached => exact namedCase_keeps _ _ n
  | missCountReached => exact namedCase_keeps _ _ n
  | calibrationDue => exact namedCase_keeps _ _ n
  | formingCountReached => exact namedCase_keeps _ _ n
  | driftRunReached => exact namedCase_keeps _ _ n
  | stepWatchFull => exact namedCase_keeps _ _ n
  | quietCountReached => exact namedCase_keeps _ _ n
  | telegramDropped => exact namedCase_keeps _ _ n
  | voidRunLimit => exact namedCase_keeps _ _ n
  | rejoin => exact namedCase_keeps _ _ n
  | ownCompletionRunLimit => exact namedCase_keeps _ _ n
  | _ => exact completeFrame_keeps _ _ n

/-- Every step keeps the bounds: a tick, or the command at the front of the queue. -/
theorem step_keeps {s t : State} (h : step s = .next t) : Keeps t.node s.node := by
  obtain ⟨n, q⟩ := s
  cases q with
  | nil =>
    cases h
    exact tick_keeps n
  | cons c rest =>
    rw [step_of_cons, exec_eq_runNode] at h
    cases h
    exact meaning_keeps c n

/-- Settles O58. -/
theorem stepsKeepTheQueueBounded : Obligations.StepsKeepTheQueueBounded :=
  fun _ _ hb h => (step_keeps h).queue hb

/-- Settles O59. -/
theorem stepsKeepTheTravelBounded : Obligations.StepsKeepTheTravelBounded :=
  fun _ _ hb h => (step_keeps h).web hb

/-- Settles O60. -/
theorem stepsKeepTablesAndPeers : Obligations.StepsKeepTablesAndPeers :=
  ⟨fun _ _ hb h => (step_keeps h).peers hb,
    fun _ _ ⟨ht, hg, hs⟩ h => ⟨(step_keeps h).table ht, (step_keeps h).triggers hg, (step_keeps h).stores hs⟩⟩

end Sys2Proof.Proofs
end

/-! PROOFS. The frame layer: what the Hold Unit's settling and an offer leave, field by field; and the Travel Unit: encoder counts,
speed intervals, repeat boundaries and the standstill timer (R1 to R6). -/
section
namespace Sys2Proof.Proofs

open Sys2Proof.Machine Sys2Proof.Laws Sys2Proof.Claims

/-! ### What the Hold Unit's settling leaves -/

@[simp] theorem holdSettle_st (n : Node) : (holdSettle n).st = n.st := by rw [holdSettle_eq]
@[simp] theorem holdSettle_muteCause (n : Node) : (holdSettle n).muteCause = n.muteCause := by rw [holdSettle_eq]
@[simp] theorem holdSettle_benchMark (n : Node) : (holdSettle n).benchMark = n.benchMark := by rw [holdSettle_eq]
@[simp] theorem holdSettle_resetCause (n : Node) : (holdSettle n).resetCause = n.resetCause := by rw [holdSettle_eq]
@[simp] theorem holdSettle_configFault (n : Node) : (holdSettle n).configFault = n.configFault := by rw [holdSettle_eq]
@[simp] theorem holdSettle_image (n : Node) : (holdSettle n).image = n.image := by rw [holdSettle_eq]
@[simp] theorem holdSettle_signature (n : Node) : (holdSettle n).signature = n.signature := by rw [holdSettle_eq]
@[simp] theorem holdSettle_freeIndex (n : Node) : (holdSettle n).freeIndex = n.freeIndex := by rw [holdSettle_eq]
@[simp] theorem holdSettle_now (n : Node) : (holdSettle n).now = n.now := by rw [holdSettle_eq]
@[simp] theorem holdSettle_pins (n : Node) : (holdSettle n).pins = n.pins := by rw [holdSettle_eq]
@[simp] theorem holdSettle_travel (n : Node) : (holdSettle n).travel = n.travel := by rw [holdSettle_eq]
@[simp] theorem holdSettle_marks (n : Node) : (holdSettle n).marks = n.marks := by rw [holdSettle_eq]
@[simp] theorem holdSettle_trig (n : Node) : (holdSettle n).trig = n.trig := by rw [holdSettle_eq]
@[simp] theorem holdSettle_track (n : Node) : (holdSettle n).track = n.track := by rw [holdSettle_eq]
@[simp] theorem holdSettle_job (n : Node) : (holdSettle n).job = n.job := by rw [holdSettle_eq]
@[simp] theorem holdSettle_loop (n : Node) : (holdSettle n).loop = n.loop := by rw [holdSettle_eq]
@[simp] theorem holdSettle_nip (n : Node) : (holdSettle n).nip = n.nip := by rw [holdSettle_eq]
@[simp] theorem holdSettle_shade (n : Node) : (holdSettle n).shade = n.shade := by rw [holdSettle_eq]
@[simp] theorem holdSettle_batch (n : Node) : (holdSettle n).batch = n.batch := by rw [holdSettle_eq]
@[simp] theorem holdSettle_roll (n : Node) : (holdSettle n).roll = n.roll := by rw [holdSettle_eq]
@[simp] theorem holdSettle_label (n : Node) : (holdSettle n).label = n.label := by rw [holdSettle_eq]
@[simp] theorem holdSettle_peers (n : Node) : (holdSettle n).peers = n.peers := by rw [holdSettle_eq]
@[simp] theorem cfg_holdSettle (n : Node) : cfg (holdSettle n) = cfg n := by simp [cfg]
@[simp] theorem isRole_holdSettle (n : Node) (r : Role) : isRole (holdSettle n) r = isRole n r := by simp [isRole]

@[simp] theorem holdReport_st (n : Node) : (holdReport n).st = n.st := by rw [holdReport_eq]
@[simp] theorem holdReport_image (n : Node) : (holdReport n).image = n.image := by rw [holdReport_eq]
@[simp] theorem holdReport_travel (n : Node) : (holdReport n).travel = n.travel := by rw [holdReport_eq]
@[simp] theorem holdReport_marks (n : Node) : (holdReport n).marks = n.marks := by rw [holdReport_eq]
@[simp] theorem holdReport_track (n : Node) : (holdReport n).track = n.track := by rw [holdReport_eq]
@[simp] theorem holdReport_job (n : Node) : (holdReport n).job = n.job := by rw [holdReport_eq]
@[simp] theorem holdReport_loop (n : Node) : (holdReport n).loop = n.loop := by rw [holdReport_eq]
@[simp] theorem holdReport_nip (n : Node) : (holdReport n).nip = n.nip := by rw [holdReport_eq]
@[simp] theorem holdReport_shade (n : Node) : (holdReport n).shade = n.shade := by rw [holdReport_eq]
@[simp] theorem holdReport_batch (n : Node) : (holdReport n).batch = n.batch := by rw [holdReport_eq]
@[simp] theorem holdReport_roll (n : Node) : (holdReport n).roll = n.roll := by rw [holdReport_eq]

/-! ### What an offer leaves -/

theorem enqueue_eq (n : Node) (t : Telegram) (r : Bool) (b : OfferBy) :
    (enqueue n t r b).1 = { n with link := (enqueue n t r b).1.link } := eq_of_sansLink (enqueue_sansLink n t r b)

theorem offerPlain_eq (n : Node) (t : Telegram) : offerPlain n t = { n with link := (offerPlain n t).link } :=
  eq_of_sansLink (offerPlain_sansLink n t)

theorem offerAgain_eq (n : Node) (t : Telegram) (r : Bool) (b : OfferBy) (o : Reoffer) :
    offerAgain n t r b o = { n with link := (offerAgain n t r b o).link } := eq_of_sansLink (offerAgain_sansLink n t r b o)

@[simp] theorem offerPlain_st (n : Node) (t : Telegram) : (offerPlain n t).st = n.st := by rw [offerPlain_eq]
@[simp] theorem offerPlain_image (n : Node) (t : Telegram) : (offerPlain n t).image = n.image := by rw [offerPlain_eq]
@[simp] theorem offerPlain_freeIndex (n : Node) (t : Telegram) : (offerPlain n t).freeIndex = n.freeIndex := by rw [offerPlain_eq]
@[simp] theorem offerPlain_travel (n : Node) (t : Telegram) : (offerPlain n t).travel = n.travel := by rw [offerPlain_eq]
@[simp] theorem offerPlain_marks (n : Node) (t : Telegram) : (offerPlain n t).marks = n.marks := by rw [offerPlain_eq]
@[simp] theorem offerPlain_trig (n : Node) (t : Telegram) : (offerPlain n t).trig = n.trig := by rw [offerPlain_eq]
@[simp] theorem offerPlain_track (n : Node) (t : Telegram) : (offerPlain n t).track = n.track := by rw [offerPlain_eq]
@[simp] theorem offerPlain_job (n : Node) (t : Telegram) : (offerPlain n t).job = n.job := by rw [offerPlain_eq]
@[simp] theorem offerPlain_loop (n : Node) (t : Telegram) : (offerPlain n t).loop = n.loop := by rw [offerPlain_eq]
@[simp] theorem offerPlain_nip (n : Node) (t : Telegram) : (offerPlain n t).nip = n.nip := by rw [offerPlain_eq]
@[simp] theorem offerPlain_shade (n : Node) (t : Telegram) : (offerPlain n t).shade = n.shade := by rw [offerPlain_eq]
@[simp] theorem offerPlain_batch (n : Node) (t : Telegram) : (offerPlain n t).batch = n.batch := by rw [offerPlain_eq]
@[simp] theorem offerPlain_hold (n : Node) (t : Telegram) : (offerPlain n t).hold = n.hold := by rw [offerPlain_eq]
@[simp] theorem offerPlain_roll (n : Node) (t : Telegram) : (offerPlain n t).roll = n.roll := by rw [offerPlain_eq]
@[simp] theorem offerPlain_label (n : Node) (t : Telegram) : (offerPlain n t).label = n.label := by rw [offerPlain_eq]
@[simp] theorem offerPlain_peers (n : Node) (t : Telegram) : (offerPlain n t).peers = n.peers := by rw [offerPlain_eq]
@[simp] theorem offerPlain_port (n : Node) (t : Telegram) : (offerPlain n t).port = n.port := by rw [offerPlain_eq]

@[simp] theorem offerAgain_st (n : Node) (t : Telegram) (r : Bool) (b : OfferBy) (o : Reoffer) :
    (offerAgain n t r b o).st = n.st := by rw [offerAgain_eq]
@[simp] theorem offerAgain_image (n : Node) (t : Telegram) (r : Bool) (b : OfferBy) (o : Reoffer) :
    (offerAgain n t r b o).image = n.image := by rw [offerAgain_eq]
@[simp] theorem offerAgain_freeIndex (n : Node) (t : Telegram) (r : Bool) (b : OfferBy) (o : Reoffer) :
    (offerAgain n t r b o).freeIndex = n.freeIndex := by rw [offerAgain_eq]
@[simp] theorem offerAgain_travel (n : Node) (t : Telegram) (r : Bool) (b : OfferBy) (o : Reoffer) :
    (offerAgain n t r b o).travel = n.travel := by rw [offerAgain_eq]
@[simp] theorem offerAgain_marks (n : Node) (t : Telegram) (r : Bool) (b : OfferBy) (o : Reoffer) :
    (offerAgain n t r b o).marks = n.marks := by rw [offerAgain_eq]
@[simp] theorem offerAgain_trig (n : Node) (t : Telegram) (r : Bool) (b : OfferBy) (o : Reoffer) :
    (offerAgain n t r b o).trig = n.trig := by rw [offerAgain_eq]
@[simp] theorem offerAgain_track (n : Node) (t : Telegram) (r : Bool) (b : OfferBy) (o : Reoffer) :
    (offerAgain n t r b o).track = n.track := by rw [offerAgain_eq]
@[simp] theorem offerAgain_job (n : Node) (t : Telegram) (r : Bool) (b : OfferBy) (o : Reoffer) :
    (offerAgain n t r b o).job = n.job := by rw [offerAgain_eq]
@[simp] theorem offerAgain_loop (n : Node) (t : Telegram) (r : Bool) (b : OfferBy) (o : Reoffer) :
    (offerAgain n t r b o).loop = n.loop := by rw [offerAgain_eq]
@[simp] theorem offerAgain_nip (n : Node) (t : Telegram) (r : Bool) (b : OfferBy) (o : Reoffer) :
    (offerAgain n t r b o).nip = n.nip := by rw [offerAgain_eq]
@[simp] theorem offerAgain_shade (n : Node) (t : Telegram) (r : Bool) (b : OfferBy) (o : Reoffer) :
    (offerAgain n t r b o).shade = n.shade := by rw [offerAgain_eq]
@[simp] theorem offerAgain_batch (n : Node) (t : Telegram) (r : Bool) (b : OfferBy) (o : Reoffer) :
    (offerAgain n t r b o).batch = n.batch := by rw [offerAgain_eq]
@[simp] theorem offerAgain_hold (n : Node) (t : Telegram) (r : Bool) (b : OfferBy) (o : Reoffer) :
    (offerAgain n t r b o).hold = n.hold := by rw [offerAgain_eq]
@[simp] theorem offerAgain_roll (n : Node) (t : Telegram) (r : Bool) (b : OfferBy) (o : Reoffer) :
    (offerAgain n t r b o).roll = n.roll := by rw [offerAgain_eq]
@[simp] theorem offerAgain_label (n : Node) (t : Telegram) (r : Bool) (b : OfferBy) (o : Reoffer) :
    (offerAgain n t r b o).label = n.label := by rw [offerAgain_eq]
@[simp] theorem offerAgain_peers (n : Node) (t : Telegram) (r : Bool) (b : OfferBy) (o : Reoffer) :
    (offerAgain n t r b o).peers = n.peers := by rw [offerAgain_eq]
@[simp] theorem offerAgain_port (n : Node) (t : Telegram) (r : Bool) (b : OfferBy) (o : Reoffer) :
    (offerAgain n t r b o).port = n.port := by rw [offerAgain_eq]

/-! ### Advances -/

@[simp] theorem advance_debt (n : Node) : (advance n).travel.debt = n.travel.debt := by
  obtain h | h := advance_travel n <;> rw [h] <;> rfl

@[simp] theorem advance_remainder (n : Node) : (advance n).travel.remainder = n.travel.remainder := by
  obtain h | h := advance_travel n <;> rw [h] <;> rfl

@[simp] theorem advance_position (n : Node) : (advance n).travel.position = n.travel.position + 1 := by
  obtain h | h := advance_travel n <;> rw [h] <;> rfl

@[simp] theorem advance_advances (n : Node) : (advance n).travel.advances = n.travel.advances + 1 := by
  obtain h | h := advance_travel n <;> rw [h] <;> rfl

@[simp] theorem advance_motion (n : Node) : (advance n).travel.motion = .moving := by
  obtain h | h := advance_travel n <;> rw [h] <;> rfl

@[simp] theorem advance_standstill (n : Node) : (advance n).travel.standstill = some 200 := by
  obtain h | h := advance_travel n <;> rw [h] <;> rfl

/-- The node without the Travel Unit and what watches the local position. -/
def sansWeb (n : Node) : Node := { n with travel := {}, marks := {}, track := {}, shade := {}, nip := {} }

theorem eq_of_sansWeb {a b : Node} (h : sansWeb a = sansWeb b) :
    a = { b with travel := a.travel, marks := a.marks, track := a.track, shade := a.shade, nip := a.nip } :=
  calc a = { sansWeb a with travel := a.travel, marks := a.marks, track := a.track, shade := a.shade, nip := a.nip } := rfl
    _ = { sansWeb b with travel := a.travel, marks := a.marks, track := a.track, shade := a.shade, nip := a.nip } := by rw [h]

theorem leaveIdle_sansWeb (n : Node) : sansWeb (leaveIdle n) = sansWeb n := by
  have hd : ∀ m : Node, sansWeb (dropShadeWindow m) = sansWeb m := by
    intro m
    unfold dropShadeWindow
    split <;> rfl
  unfold leaveIdle
  split
  · next h =>
    have hs : n.track.tracker ≠ .search := by simp [h.2.1]
    have ht : n.track.tracker ≠ .track := by simp [h.2.1]
    have hto : trackerTo n .search = dropShadeWindow (travelForget { n with track := { n.track with tracker := .search } }) := by
      simp [trackerTo, hs, ht]
    rw [hto]
    exact hd _
  · rfl

theorem advance_sansWeb (n : Node) : sansWeb (advance n) = sansWeb n := by
  have hs : ∀ m : Node, sansWeb (sampleCells m) = sansWeb m := by
    intro m
    unfold sampleCells
    split <;> rfl
  have hc : ∀ m : Node, sansWeb (countSample m) = sansWeb m := by
    intro m
    unfold countSample
    split <;> rfl
  calc sansWeb (advance n) = sansWeb (countSample (leaveIdle (sampleCells (moveOn n)))) := rfl
    _ = sansWeb (leaveIdle (sampleCells (moveOn n))) := hc _
    _ = sansWeb (sampleCells (moveOn n)) := leaveIdle_sansWeb _
    _ = sansWeb (moveOn n) := hs _
    _ = sansWeb n := rfl

/-! ### Runs of ticks -/

theorem forwardTick_sansWeb (n : Node) : sansWeb (forwardTick n) = sansWeb n := by
  unfold forwardTick
  split
  · exact advance_sansWeb n
  · rfl

theorem reverseTick_sansWeb (n : Node) : sansWeb (reverseTick n) = sansWeb n := by
  by_cases h : n.travel.debt < 16777215
  · rw [reverseTick_eq n h]
    rfl
  · rw [reverseTick_at_full_debt n (Nat.not_lt.mp h)]

theorem iterate_sansWeb {f : Node → Node} (hf : ∀ n, sansWeb (f n) = sansWeb n) (k : Nat) (n : Node) :
    sansWeb (iterate f k n) = sansWeb n := by
  induction k generalizing n with
  | zero => rfl
  | succ k ih => exact (ih (f n)).trans (hf n)

/-- R2, R3, R5: the Travel Unit `u` that `k` forward ticks leave of `t`. -/
structure Forwarded (k : Nat) (t u : Travel) : Prop where
  remainder : u.remainder = t.remainder
  debt : u.debt = t.debt - k
  position : u.position = t.position + BitVec.ofNat 32 (k - t.debt)
  advances : u.advances = t.advances + (k - t.debt)
  reversed : u.webReversed = (t.webReversed && (decide (t.debt = 0) || decide (k < t.debt)))
  moving : t.debt < k → u.motion = .moving ∧ u.standstill = some 200
  resting : k ≤ t.debt → u.motion = t.motion ∧ u.standstill = t.standstill

theorem iterate_forwardTick (k : Nat) (n : Node) : Forwarded k n.travel (iterate forwardTick k n).travel := by
  induction k generalizing n with
  | zero =>
    refine ⟨rfl, rfl, by simp [iterate], by simp [iterate], ?_, fun h => absurd h (Nat.not_lt_zero _), fun _ => ⟨rfl, rfl⟩⟩
    have hd : (decide (n.travel.debt = 0) || decide (0 < n.travel.debt)) = true := by
      obtain h | h := Nat.eq_zero_or_pos n.travel.debt <;> simp [h]
    rw [hd, Bool.and_true]
    rfl
  | succ k ih =>
    obtain ⟨hr, hd, hp, ha, hw, hm, hs⟩ := ih (forwardTick n)
    by_cases h : n.travel.debt = 0
    · rw [forwardTick_without_debt n h] at hr hd hp ha hw hm hs
      simp only [advance_remainder, advance_debt, advance_position, advance_advances, advance_webReversed, advance_motion,
        advance_standstill, h, Nat.zero_sub, Nat.sub_zero, decide_true, Bool.true_or, Bool.and_true] at hr hd hp ha hw hm hs
      unfold iterate
      rw [forwardTick_without_debt n h]
      refine ⟨hr, by rw [hd, h, Nat.zero_sub], ?_, by rw [ha, h]; omega, by rw [hw, h]; simp, fun _ => ?_, fun h0 => by omega⟩
      · rw [hp, h, BitVec.add_assoc, Nat.sub_zero, BitVec.ofNat_add]
        exact congrArg _ (BitVec.add_comm _ _)
      · obtain hk | hk := Nat.eq_zero_or_pos k
        · obtain ⟨h1, h2⟩ := hs (Nat.le_of_eq hk)
          exact ⟨h1, h2⟩
        · exact hm hk
    · have hpos := Nat.pos_of_ne_zero h
      rw [forwardTick_in_debt n hpos] at hr hd hp ha hw hm hs
      dsimp only at hr hd hp ha hw hm hs
      unfold iterate
      rw [forwardTick_in_debt n hpos]
      have hk : k - (n.travel.debt - 1) = k + 1 - n.travel.debt := by omega
      refine ⟨hr, by rw [hd]; omega, by rw [hp, hk], by rw [ha, hk], ?_, fun h0 => hm (by omega), fun h0 => hs (by omega)⟩
      rw [hw, Bool.and_assoc]
      congr 1
      rw [Bool.eq_iff_iff]
      simp only [Bool.and_eq_true, Bool.or_eq_true, decide_eq_true_eq]
      omega

/-- R2, R3: the Travel Unit `u` that `k` reverse ticks leave of `t`, with this backlash limit. -/
structure Reversed (backlash k : Nat) (t u : Travel) : Prop where
  remainder : u.remainder = t.remainder
  debt : u.debt = min 16777215 (t.debt + k)
  position : u.position = t.position
  advances : u.advances = t.advances
  reversed : u.webReversed = (t.webReversed || (decide (t.debt < u.debt) && decide (backlash < u.debt)))
  motion : u.motion = t.motion
  standstill : u.standstill = t.standstill

theorem cfg_of_sansWeb {a b : Node} (h : sansWeb a = sansWeb b) : cfg a = cfg b := by
  have h2 := congrArg cfg h
  exact h2

theorem iterate_reverseTick (k : Nat) (n : Node) (h : n.travel.debt ≤ 16777215) :
    Reversed (cfg n).backlash k n.travel (iterate reverseTick k n).travel := by
  induction k generalizing n with
  | zero => exact ⟨rfl, (Nat.min_eq_right h).symm, rfl, rfl, by simp [iterate], rfl, rfl⟩
  | succ k ih =>
    by_cases hd : n.travel.debt < 16777215
    · have ht := reverseTick_travel n hd
      have hi := ih (reverseTick n) (by rw [ht]; exact hd)
      rw [ht, cfg_of_sansWeb (reverseTick_sansWeb n)] at hi
      obtain ⟨h1, h2, h3, h4, h5, h6, h7⟩ := hi
      dsimp only at h1 h2 h3 h4 h5 h6 h7
      refine ⟨h1, by unfold iterate; rw [h2]; omega, h3, h4, ?_, h6, h7⟩
      unfold iterate
      rw [h5, h2, Bool.or_assoc]
      congr 1
      rw [Bool.eq_iff_iff]
      simp only [Bool.and_eq_true, Bool.or_eq_true, decide_eq_true_eq]
      omega
    · have hfull := reverseTick_at_full_debt n (Nat.not_lt.mp hd)
      unfold iterate
      rw [hfull]
      obtain ⟨h1, h2, h3, h4, h5, h6, h7⟩ := ih n h
      exact ⟨h1, by rw [h2]; omega, h3, h4, h5, h6, h7⟩

/-! ### Encoder counts (R1) -/

/-- R1: with a denominator above 0 the ticks are the whole part, and the remainder is what is left. -/
theorem scaleCount_spec (n : Node) (up : Int) (h : 0 < (cfg n).denominator) :
    (scaleCount n up).1 = up.toNat / (cfg n).denominator ∧
    up = (scaleCount n up).1 * (cfg n).denominator + (scaleCount n up).2 ∧
    (scaleCount n up).2 < (cfg n).denominator ∧ (0 < (scaleCount n up).1 → 0 ≤ (scaleCount n up).2) := by
  unfold scaleCount
  dsimp only
  rw [if_neg (Nat.ne_of_gt h)]
  by_cases hu : up < (cfg n).denominator
  · rw [if_pos hu]
    have hlt : up.toNat < (cfg n).denominator := by omega
    exact ⟨(Nat.div_eq_of_lt hlt).symm, by simp, hu, fun h0 => absurd h0 (Nat.lt_irrefl 0)⟩
  · rw [if_neg hu]
    dsimp only
    have hup : (up.toNat : Int) = up := by omega
    refine ⟨rfl, ?_, by exact_mod_cast Nat.mod_lt _ h, fun _ => Int.natCast_nonneg _⟩
    have hdiv : up.toNat = up.toNat / (cfg n).denominator * (cfg n).denominator + up.toNat % (cfg n).denominator := by
      rw [Nat.mul_comm]; exact (Nat.div_add_mod _ _).symm
    rw [← hup]
    exact_mod_cast hdiv

/-- R1: the ticks of one count. -/
def countTicks (n : Node) (forward : Bool) : Nat × Int :=
  scaleCount n (if forward then n.travel.remainder + (cfg n).numerator else (cfg n).numerator - n.travel.remainder)

theorem takeCount_sansWeb (n : Node) (f : Bool) (h : 0 < (cfg n).denominator) : sansWeb (takeCount n f) = sansWeb n := by
  unfold takeCount
  dsimp only
  rw [if_neg (Nat.ne_of_gt h)]
  cases f with
  | true => exact (iterate_sansWeb forwardTick_sansWeb _ _).trans rfl
  | false => exact (iterate_sansWeb reverseTick_sansWeb _ _).trans rfl

theorem takeCount_forward (n : Node) (h : 0 < (cfg n).denominator) :
    Forwarded (countTicks n true).1 { n.travel with remainder := (countTicks n true).2 } (takeCount n true).travel := by
  unfold takeCount
  dsimp only
  rw [if_neg (Nat.ne_of_gt h)]
  exact iterate_forwardTick (countTicks n true).1 { n with travel := { n.travel with remainder := (countTicks n true).2 } }

theorem takeCount_reverse (n : Node) (h : 0 < (cfg n).denominator) (hd : n.travel.debt ≤ 16777215) :
    Reversed (cfg n).backlash (countTicks n false).1 { n.travel with remainder := -(countTicks n false).2 }
      (takeCount n false).travel := by
  unfold takeCount
  dsimp only
  rw [if_neg (Nat.ne_of_gt h)]
  exact iterate_reverseTick (countTicks n false).1 { n with travel := { n.travel with remainder := -(countTicks n false).2 } } hd

theorem cfg_of_runs {s : State} {c : Config} (h : Runs s c) : cfg s.node = c := by
  unfold cfg
  rw [h]
  rfl

theorem encoderCount_valid (a b : Bool) (n : Node) (hr : travelRole n = true) (hv : validCount n.pins a b = true) :
    encoderCount a b n =
      holdSettle (takeCount { n with pins := { n.pins with encA := a, encB := b } } (forwardCount (cfg n) n.pins a b)) :=
  if_pos ⟨hr, hv⟩

theorem encoderCount_invalid (a b : Bool) (n : Node) (hv : validCount n.pins a b = false) :
    encoderCount a b n = { n with pins := { n.pins with encA := a, encB := b } } := by
  simp [encoderCount, hv]

/-- What a valid count leaves outside the web is what the Hold Unit's settling leaves. -/
theorem encoderCount_eq (a b : Bool) (n : Node) (hd : 0 < (cfg n).denominator) :
    encoderCount a b n = { n with
      pins := { n.pins with encA := a, encB := b }, travel := (encoderCount a b n).travel, marks := (encoderCount a b n).marks,
      track := (encoderCount a b n).track, shade := (encoderCount a b n).shade, nip := (encoderCount a b n).nip,
      hold := (encoderCount a b n).hold, link := (encoderCount a b n).link, port := (encoderCount a b n).port } := by
  by_cases h : travelRole n ∧ validCount n.pins a b
  · rw [encoderCount_valid a b n h.1 h.2, holdSettle_eq]
    have hw := eq_of_sansWeb (takeCount_sansWeb { n with pins := { n.pins with encA := a, encB := b } }
      (forwardCount (cfg n) n.pins a b) hd)
    rw [hw]
  · have he : encoderCount a b n = { n with pins := { n.pins with encA := a, encB := b } } := if_neg h
    rw [he]

theorem encoderCount_forward (a b : Bool) (n : Node) (hr : travelRole n = true) (hd : 0 < (cfg n).denominator)
    (hv : validCount n.pins a b = true) (hf : forwardCount (cfg n) n.pins a b = true) :
    Forwarded (countTicks n true).1 { n.travel with remainder := (countTicks n true).2 } (encoderCount a b n).travel := by
  rw [encoderCount_valid a b n hr hv, hf, holdSettle_travel]
  exact takeCount_forward { n with pins := { n.pins with encA := a, encB := b } } hd

theorem encoderCount_reverse (a b : Bool) (n : Node) (hr : travelRole n = true) (hd : 0 < (cfg n).denominator)
    (hdebt : n.travel.debt ≤ 16777215) (hv : validCount n.pins a b = true) (hf : forwardCount (cfg n) n.pins a b = false) :
    Reversed (cfg n).backlash (countTicks n false).1 { n.travel with remainder := -(countTicks n false).2 }
      (encoderCount a b n).travel := by
  rw [encoderCount_valid a b n hr hv, hf, holdSettle_travel]
  exact takeCount_reverse { n with pins := { n.pins with encA := a, encB := b } } hd hdebt

theorem countsMoveTheWeb : Claims.CountsMoveTheWeb := by
  intro a b s c hc hr hden hdebt _
  have hcfg := cfg_of_runs hc
  subst hcfg
  refine after_meaning ?_
  have heq := encoderCount_eq a b s.node hden
  have hpins : (encoderCount a b s.node).pins = { s.node.pins with encA := a, encB := b } := by rw [heq]
  refine ⟨hpins, fun hv => ?_, fun hv hf => ?_, fun hv hf => ?_, ?_⟩
  · show encoderCount a b s.node = { s.node with pins := (encoderCount a b s.node).pins }
    rw [encoderCount_invalid a b s.node hv]
  · obtain ⟨h1, h2, h3, h4, h5, h6, h7⟩ := encoderCount_forward a b s.node hr hden hv hf
    obtain ⟨-, hsum, hlt, hnn⟩ := scaleCount_spec s.node (s.node.travel.remainder + (cfg s.node).numerator) hden
    refine ⟨(countTicks s.node true).1, ?_, ?_, fun hk => ?_, h2, h3, h5, h4, h6, h7⟩
    · exact hsum.trans (congrArg _ h1.symm)
    · exact h1 ▸ hlt
    · exact h1 ▸ hnn hk
  · obtain ⟨h1, h2, h3, -, h5, h6, h7⟩ := encoderCount_reverse a b s.node hr hden hdebt hv hf
    obtain ⟨-, hsum, hlt, hnn⟩ := scaleCount_spec s.node ((cfg s.node).numerator - s.node.travel.remainder) hden
    have hrem : (encoderCount a b s.node).travel.remainder = -(countTicks s.node false).2 := h1
    refine ⟨(countTicks s.node false).1, ?_, ?_, fun hk => ?_, h2, h3, h6, h7, h5⟩
    · show s.node.travel.remainder - (cfg s.node).numerator =
        (encoderCount a b s.node).travel.remainder - (countTicks s.node false).1 * (cfg s.node).denominator
      rw [hrem]
      have : ((countTicks s.node false).1 : Int) * (cfg s.node).denominator + (countTicks s.node false).2 =
          (cfg s.node).numerator - s.node.travel.remainder := hsum.symm
      omega
    · show -((cfg s.node).denominator : Int) < (encoderCount a b s.node).travel.remainder
      rw [hrem]
      exact Int.neg_lt_neg hlt
    · show (encoderCount a b s.node).travel.remainder ≤ 0
      rw [hrem]
      have := hnn hk
      exact Int.neg_nonpos_of_nonneg this
  · exact heq.trans (by rw [← hpins]; rfl)

/-- R1: a valid transition in which ENCA leads is one of 00, 10, 11, 01, 00. -/
theorem aLeads_of_valid (p : Pins) (a b : Bool) (hv : validCount p a b = true) :
    aLeads p a b = decide ((p.encA, p.encB, a, b) ∈
      [(false, false, true, false), (true, false, true, true), (true, true, false, true), (false, true, false, false)]) := by
  have hall : ∀ ea eb x y : Bool, ((x != ea) != (y != eb)) = true →
      (if x != ea then x != y else x == y) = decide ((ea, eb, x, y) ∈
        [(false, false, true, false), (true, false, true, true), (true, true, false, true), (false, true, false, false)]) := by
    decide
  exact hall p.encA p.encB a b hv

theorem theSenseSetsTheDirection : Claims.TheSenseSetsTheDirection := by
  intro c p a b hv
  have hlead := aLeads_of_valid p a b hv
  refine ⟨fun h => ?_, fun h => ?_⟩
  · unfold forwardCount
    rw [h]
    exact hlead
  · unfold forwardCount
    rw [h]
    exact congrArg (!·) hlead

/-- Settles O5: a count by its ticks, each tick by what it does to debt or position. -/
theorem encoderCountMovesTheWeb : Obligations.EncoderCountMovesTheWeb :=
  ⟨countsMoveTheWeb, theSenseSetsTheDirection⟩

theorem namedCase_pos {hit : Occasion → Node → Bool} {c : Occasion} {n : Node} (h : hit c n = true) :
    namedCase hit c n = occur c n := if_pos h

/-- Settles O6: WEB_REVERSED after the whole count, by the debt that the count leaves. -/
theorem webReversedRowsRunTheCount : Obligations.WebReversedRowsRunTheCount := by
  unfold Obligations.WebReversedRowsRunTheCount
  intro a b s c hc hr hden hv
  have hcfg := cfg_of_runs hc
  subst hcfg
  refine ⟨fun hf hw hdebt hticks hlimit => ?_, fun hf hw hdebt hticks => ?_⟩
  · have h := encoderCount_reverse a b s.node hr hden (by omega) hv hf
    have hk : (countTicks s.node false).1 =
        (((cfg s.node).numerator : Int) - s.node.travel.remainder).toNat / (cfg s.node).denominator :=
      (scaleCount_spec s.node _ hden).1
    have hd : (encoderCount a b s.node).travel.debt = min 16777215 (s.node.travel.debt + (countTicks s.node false).1) := h.debt
    have hlt : (cfg s.node).backlash < (encoderCount a b s.node).travel.debt := by rw [hd]; omega
    have hrev : (encoderCount a b s.node).travel.webReversed = true := by
      rw [h.reversed]
      simp [hlt, Nat.lt_of_le_of_lt hdebt hlt]
    have hhit : reversedBegins (.encoder a b) s.node = true := by simp [reversedBegins, occur, hw, hrev]
    refine ⟨encoderCount a b s.node, ?_, hrev, h.position, hlt, gives_meaning _ s⟩
    exact gives_of_meaning (c := .webReversedOnset a b) (namedCase_pos hhit)
  · have h := encoderCount_forward a b s.node hr hden hv hf
    have hk : (countTicks s.node true).1 =
        (((cfg s.node).numerator : Int) + s.node.travel.remainder).toNat / (cfg s.node).denominator := by
      rw [Int.add_comm]
      exact (scaleCount_spec s.node _ hden).1
    have hd : (encoderCount a b s.node).travel.debt = s.node.travel.debt - (countTicks s.node true).1 := h.debt
    have hrev : (encoderCount a b s.node).travel.webReversed = false := by
      rw [h.reversed]
      have h1 : s.node.travel.debt ≠ 0 := Nat.ne_of_gt hdebt
      have h2 : ¬(countTicks s.node true).1 < s.node.travel.debt := by omega
      simp [h1, h2]
    have hhit : reversedEnds (.encoder a b) s.node = true := by simp [reversedEnds, occur, hw, hrev]
    refine ⟨encoderCount a b s.node, ?_, hrev, by rw [hd]; omega, gives_meaning _ s⟩
    exact gives_of_meaning (c := .webReversedEnd a b) (namedCase_pos hhit)

/-! ### Speed (R4, R6) -/

theorem forwardTick_advances (n : Node) :
    (forwardTick n).travel.advances = n.travel.advances + (if n.travel.debt = 0 then 1 else 0) := by
  by_cases h : n.travel.debt = 0
  · rw [forwardTick_without_debt n h, advance_advances, if_pos h]
  · rw [forwardTick_in_debt n (Nat.pos_of_ne_zero h), if_neg h]
    rfl

theorem reverseTick_advances (n : Node) : (reverseTick n).travel.advances = n.travel.advances := by
  by_cases h : n.travel.debt < 16777215
  · rw [reverseTick_travel n h]
  · rw [reverseTick_at_full_debt n (Nat.not_lt.mp h)]

/-- Table 58: the speed stands in bytes 24 and 25 of the NODE view. -/
theorem viewNode_speed (n : Node) : ((viewNode n).drop 24).take 2 = known (be2 n.travel.speed) := by
  have h3 : ∀ i : Option Config,
      (optBytes 3 (fun (c : Config) => k1 c.role.code ++ k1 c.station ++ k1 c.colourSlot) i).length = 3 := by
    intro i
    cases i <;> rfl
  have h1 : ∀ k : Option RequestKind, (optBytes 1 (fun (k : RequestKind) => k1 k.code) k).length = 1 := by
    intro k
    cases k <;> rfl
  have ha : ∀ k : Option Nat, (optBytes 1 k1 k).length = 1 := by
    intro k
    cases k <;> rfl
  have hj : ∀ j : JobAnswer, (answerBytes j).length = 3 := by
    intro j
    cases j <;> rfl
  have hstate : (nodeStateBytes n).length = 14 := by
    unfold nodeStateBytes
    simp only [List.length_append, h3, h1, ha, hj]
    rfl
  have hdrop : (viewNode n).drop 24 = (nodeTrackBytes n ++ nodeLabelBytes n).drop 10 := by
    unfold viewNode
    rw [List.append_assoc, List.drop_append, hstate, List.drop_eq_nil_of_le (by rw [hstate]; decide)]
    rfl
  rw [hdrop]
  rfl

theorem intervalsTakeTheAdvances : Claims.IntervalsTakeTheAdvances := by
  refine ⟨fun s h => ?_, forwardTick_advances, reverseTick_advances, fun _ => ⟨rfl, rfl⟩, viewNode_speed⟩
  have hmin : min s.node.travel.advances 65535 =
      if 65535 < s.node.travel.advances then 65535 else s.node.travel.advances := by
    split <;> omega
  have hspeed : speedInterval s.node = { s.node with travel := { s.node.travel with
      speed := min s.node.travel.advances 65535, advances := 0, intervalLeft := 10 } } := if_pos h
  rw [hmin] at hspeed
  exact gives_of_meaning (c := .speedInterval) hspeed

/-- R6: without a last boundary there is no repeat speed. -/
theorem boundary_first (n : Node) (e : Pos) (t : Nat) (c : Bool) (h : n.travel.lastBoundary = none) :
    (boundary n e t c).travel = { n.travel with lastBoundary := some (e, t), speedStep := false } := by
  simp [boundary, repeatSpeed, h]

/-- R6: with time passed since the last boundary the repeat speed is the travel by 10 over the milliseconds. -/
theorem boundary_later (n : Node) (e : Pos) (t : Nat) (c : Bool) (p : Pos) (t0 : Nat) (h : n.travel.lastBoundary = some (p, t0))
    (ht : t0 < t) :
    (boundary n e t c).travel = { n.travel with
      lastBoundary := some (e, t)
      lastSpeed := some ((posDiff e p).toNat * 10 / (t - t0))
      speedStep := match n.travel.lastSpeed with
        | some old => c && decide (0 < old) && speedSteps (cfg n) ((posDiff e p).toNat * 10 / (t - t0)) old
        | none => false } := by
  have hle : ¬t ≤ t0 := Nat.not_le.mpr ht
  unfold boundary
  simp only [repeatSpeed, h, Option.map_some, if_neg hle]
  cases n.travel.lastSpeed <;> rfl

theorem boundary_speedStep (n : Node) (e : Pos) (t u : Nat) (p : Pos) (t0 : Nat) (h : n.travel.lastBoundary = some (p, t0))
    (ht : t0 < t) (hu : n.travel.lastSpeed = some u) (hpos : 0 < u) :
    (boundary n e t true).travel.speedStep = decide ((cfg n).speedThreshold * u <
      100 * (((((posDiff e p).toNat * 10 / (t - t0) : Nat) : Int) - u).natAbs)) := by
  rw [boundary_later n e t true p t0 h ht, hu]
  simp [hpos, speedSteps]

@[simp] theorem boundary_lastBoundary (n : Node) (e : Pos) (t : Nat) (c : Bool) :
    (boundary n e t c).travel.lastBoundary = some (e, t) := rfl

/-- Table 16: SPEED_STEP is bit 2 of the cause set. -/
theorem factorInputs_speedStep (n : Node) : (factorInputs n).getLsbD 2 = n.travel.speedStep := by
  simp only [factorInputs, BitVec.getLsbD_or, causeBit_getLsbD _ 2 _ (by decide)]
  simp

/-! ### The issue of a repeat -/

@[simp] theorem formObserved_travel (n : Node) : (formObserved n).travel = n.travel := rfl

@[simp] theorem lengthCheck_travel (n : Node) (len : Nat) : (lengthCheck n len).travel = n.travel := by
  unfold lengthCheck
  dsimp only
  rw [formObserved_travel]
  split <;> rfl

@[simp] theorem lengthCheck_image (n : Node) (len : Nat) : (lengthCheck n len).image = n.image := by
  unfold lengthCheck formObserved
  dsimp only
  split <;> rfl

@[simp] theorem testSwitch_travel (n : Node) (j : Option JobRecord) (x : Nat) : (testSwitch n j x).1.travel = n.travel := by
  unfold testSwitch
  split
  · rfl
  · split
    · split <;> rfl
    · rfl

@[simp] theorem testSwitch_image (n : Node) (j : Option JobRecord) (x : Nat) : (testSwitch n j x).1.image = n.image := by
  unfold testSwitch
  split
  · rfl
  · split
    · split <;> rfl
    · rfl

@[simp] theorem issueRepeat_travel (n : Node) (x len : Nat) (i : Pos) : (issueRepeat n x len i).travel = n.travel := by
  simp [issueRepeat]

@[simp] theorem cfg_issueRepeat (n : Node) (x len : Nat) (i : Pos) : cfg (issueRepeat n x len i) = cfg n := by
  simp [cfg, issueRepeat]

/-- R48, R49: an index that issues a repeat. -/
theorem cylinderIndex_issues (n : Node) (p : Pos) (x : Nat) (hk : isRole n .key = true) (hr : n.track.running = true)
    (hp : n.track.prevIndex = some p) (hx : n.track.nextRepeat = some x) (hl : 1250 ≤ (n.travel.position - p).toNat) :
    cylinderIndex n = holdReport (boundary (issueRepeat n x (min (n.travel.position - p).toNat 65535) n.travel.position)
      n.travel.position n.now true) := by
  have hi : indexIssues n = some (boundary (issueRepeat n x (min (n.travel.position - p).toNat 65535) n.travel.position)
      n.travel.position n.now true) := by
    unfold indexIssues
    rw [hp, hx]
    exact if_pos ⟨hk, hr, hl⟩
  unfold cylinderIndex
  rw [hi]

theorem speedStepsFollowTheThreshold : Claims.SpeedStepsFollowTheThreshold := by
  refine ⟨fun n e t c => ⟨rfl, fun h => ?_, fun p t0 h ht => ⟨?_, fun u hu hpos hc => ?_, fun hz => ?_⟩⟩, factorInputs_speedStep,
    fun s p q t0 u x hk hr hp hx hl hb ht hu hpos => after_meaning ?_⟩
  · rw [boundary_first n e t c h]
    exact ⟨rfl, rfl⟩
  · rw [boundary_later n e t c p t0 h ht]
  · subst hc
    exact boundary_speedStep n e t u p t0 h ht hu hpos
  · rw [boundary_later n e t c p t0 h ht]
    obtain h0 | h0 | h0 := hz
    · simp [h0]
    · simp [h0]
    · subst h0
      cases n.travel.lastSpeed <;> rfl
  · have hm : (meaning .cylinderIndex s.node).travel =
        (boundary (issueRepeat s.node x (min (s.node.travel.position - p).toNat 65535) s.node.travel.position)
          s.node.travel.position s.node.now true).travel := by
      rw [meaning, cylinderIndex_issues s.node p x hk hr hp hx hl, holdReport_travel]
    rw [hm]
    have hb' := (congrArg Travel.lastBoundary (issueRepeat_travel s.node x (min (s.node.travel.position - p).toNat 65535)
      s.node.travel.position)).trans hb
    have hu' := (congrArg Travel.lastSpeed (issueRepeat_travel s.node x (min (s.node.travel.position - p).toNat 65535)
      s.node.travel.position)).trans hu
    have hstep := boundary_speedStep _ s.node.travel.position s.node.now u q t0 hb' ht hu' hpos
    rw [cfg_issueRepeat] at hstep
    exact ⟨rfl, by rw [boundary_later _ _ _ _ q t0 hb' ht], hstep⟩

/-- Settles O8: the interval by `speedInterval` and the ticks, the step by the boundary with and without a last one. -/
theorem speedIntervalTakesTheAdvances : Obligations.SpeedIntervalTakesTheAdvances :=
  ⟨intervalsTakeTheAdvances, speedStepsFollowTheThreshold⟩

/-! ### The standstill timer (R5, R108) -/

theorem openNip_state (n : Node) :
    (openNip n).nip.state = (match n.nip.state with | .opened => .opened | _ => .opening) := by
  unfold openNip
  split <;> simp_all [moveNip, setNip]

theorem openNip_actuation (n : Node) (h : n.nip.state = .closed ∨ n.nip.state = .closing) :
    (openNip n).nip.actuation = some (cfg n).actuationTime := by
  unfold openNip
  obtain h | h := h <;> rw [h] <;> rfl

theorem openNip_waitingClose (n : Node) (h : n.nip.state = .opening) : (openNip n).nip.waitingClose = false := by
  unfold openNip
  rw [h]

/-- R104: an open request writes the Nip Controller, and neither its regular close nor the Trigger Table. -/
theorem openNip_eq (n : Node) : openNip n = { n with nip := (openNip n).nip } := by
  unfold openNip
  split <;> rfl

@[simp] theorem openNip_regular (n : Node) : (openNip n).nip.regular = n.nip.regular := by
  unfold openNip
  split <;> rfl

/-- R107: an armed regular close is cancelled with tag 1. -/
theorem cancelRegular_eq (n : Node) :
    cancelRegular n = { n with
      nip := { n.nip with regular := false }
      trig := { n.trig with entries :=
        if n.nip.regular then n.trig.entries.filter (fun x => decide (x.tag ≠ 1)) else n.trig.entries } } := by
  unfold cancelRegular
  split
  · next h => simp [cancelTrigger]
  · next h =>
    have hf : n.nip.regular = false := by simpa using h
    rw [← hf]

/-- R5: the web at a standstill. -/
def webStopped (n : Node) : Node := { n with travel := { n.travel with standstill := none, motion := .standstill } }

theorem standstillTimer_expired (n : Node) (h : n.travel.standstill = some 0) :
    standstillTimer n = if n.travel.motion = .moving ∧ isRole n .emboss = true then cancelRegular (openNip (webStopped n))
      else webStopped n := if_pos h

/-- Settles O9: the timer's expiry, at the EMBOSS node with the open request and the cancelled close. -/
theorem standstillTimerStopsTheWeb : Obligations.StandstillTimerStopsTheWeb := by
  unfold Obligations.StandstillTimerStopsTheWeb
  intro s h
  have hm : meaning .standstillTimer s.node = _ := standstillTimer_expired s.node h
  refine after_meaning ?_
  by_cases hc : s.node.travel.motion = .moving ∧ isRole s.node .emboss = true
  · rw [hm, if_pos hc, cancelRegular_eq, openNip_eq]
    refine ⟨rfl, fun h0 => ?_, fun _ _ => ⟨rfl, openNip_state (webStopped s.node), openNip_actuation (webStopped s.node),
      openNip_waitingClose (webStopped s.node), rfl, ?_, ?_⟩⟩
    · obtain h0 | h0 := h0
      · rw [hc.2] at h0; cases h0
      · rw [hc.1] at h0; cases h0
    · dsimp only
      rw [openNip_regular]
      rfl
    · rfl
  · rw [hm, if_neg hc]
    exact ⟨rfl, fun _ => rfl, fun h1 h2 => absurd ⟨h2, h1⟩ hc⟩

end Sys2Proof.Proofs
end

/-! PROOFS. The Mark Reader: edges of the EYE line, register windows, index pulses and tally reads (R8 to R13, R78). -/
section
namespace Sys2Proof.Proofs

open Sys2Proof.Machine Sys2Proof.Laws Sys2Proof.Claims

/-! ### The Hold Unit at the end of a step -/

theorem settleAfter_eq (b n : Node) :
    settleAfter b n = { n with hold := (settleAfter b n).hold, link := (settleAfter b n).link, port := (settleAfter b n).port } := by
  unfold settleAfter
  split
  · exact holdReport_eq n
  · exact holdSettle_eq n

@[simp] theorem settleAfter_marks (b n : Node) : (settleAfter b n).marks = n.marks := by rw [settleAfter_eq]

/-! ### Edges of the EYE line (R8, R9) -/

/-- The node whose mark `m` a light edge has ended. -/
def markClosed (n : Node) : Node := { lightEdge n with marks := { n.marks with mark := none } }

theorem markTrailingEdge_ends (n : Node) (m : Mark) (he : eyeRole n = true) (hdark : n.pins.eyeDark = true)
    (hd : n.travel.debt = 0) (hm : n.marks.mark = some m) :
    markTrailingEdge n = settleAfter n (classifyMark (markClosed n) m (posDiff n.travel.position m.edge)) := by
  have hended : markEnded n = some (markClosed n, m) := by
    unfold markEnded
    rw [hm]
    exact if_pos ⟨hdark, he, hd⟩
  unfold markTrailingEdge markTaken
  rw [hended]
  rfl

theorem markTrailingEdge_idle (n : Node) (h : n.marks.mark = none ∨ 0 < n.travel.debt) : markTrailingEdge n = lightEdge n := by
  have hended : markEnded n = none := by
    unfold markEnded
    obtain h | h := h
    · rw [h]
    · split
      · rfl
      · simp [Nat.ne_of_gt h]
  unfold markTrailingEdge markTaken
  rw [hended]
  rfl

theorem keyWidth_false {w : Int} (h : ¬(40 ≤ w ∧ w ≤ 60)) : keyWidth w = false := by
  unfold keyWidth
  by_cases h1 : 40 ≤ w
  · have h2 : ¬w ≤ 60 := fun h2 => h ⟨h1, h2⟩
    simp [h2]
  · simp [h1]

theorem classifyMark_inSpan (n : Node) (m : Mark) (w : Int) (hw : ¬(40 ≤ w ∧ w ≤ 60)) (hs : m.inSpan = true) :
    classifyMark n m w = n := by
  simp [classifyMark, keyWidth_false hw, hs]

theorem classifyMark_colour (n : Node) (m : Mark) (w : Int) (hw : ¬(40 ≤ w ∧ w ≤ 60)) (hs : m.inSpan = false)
    (hc : 15 ≤ w ∧ w ≤ 30) : classifyMark n m w = if isRole n .print = true then colourMark n m.edge else n := by
  simp [classifyMark, keyWidth_false hw, hs, hc]

theorem classifyMark_stray (n : Node) (m : Mark) (w : Int) (hw : ¬(40 ≤ w ∧ w ≤ 60)) (hs : m.inSpan = false)
    (hc : ¬(15 ≤ w ∧ w ≤ 30)) : classifyMark n m w = countStray n := by
  simp [classifyMark, keyWidth_false hw, hs, hc]

/-- R9: with no register window open a COLOUR mark joins the history, and a fifth pushes out the oldest. -/
theorem colourMark_marks (n : Node) (e : Pos) (hw : n.marks.window = none) :
    let h := n.marks.history ++ [{ edge := e, taken := false }]
    (colourMark n e).marks.history = (if h.length ≤ 4 then h else h.tail) ∧
    (colourMark n e).marks.stray = n.marks.stray + (if 4 < h.length ∧ h.head?.map (·.taken) = some false then 1 else 0) := by
  have hp : (placeColour n e).marks.window = none := by
    unfold placeColour
    dsimp only
    split <;> exact hw
  have hc : colourMark n e = placeColour n e := by
    unfold colourMark offerCandidate
    rw [hp]
  intro h
  rw [hc]
  unfold placeColour
  by_cases hl : h.length ≤ 4
  · have h4 : ¬(4 < h.length ∧ h.head?.map (·.taken) = some false) := fun hh => absurd hh.1 (Nat.not_lt.mpr hl)
    rw [if_pos hl, if_neg h4, if_pos hl]
    exact ⟨rfl, (BitVec.add_zero _).symm⟩
  · rw [if_neg hl, if_neg hl]
    refine ⟨List.drop_one, ?_⟩
    show n.marks.stray + (if (match h.head? with | some m => !m.taken | none => false) = true then 1 else 0) = _
    congr 1
    cases h.head? with
    | none => simp
    | some m => simp [Nat.not_le.mp hl]

/-- R8: a dark edge outside debt notes the mark in progress. -/
theorem markLeadingEdge_marks (n : Node) (he : eyeRole n = true) (hdark : n.pins.eyeDark = false) (hd : n.travel.debt = 0) :
    markLeadingEdge n = { n with
      pins := { n.pins with eyeDark := true }
      marks := { n.marks with mark := some { edge := n.travel.position, time := n.now, inSpan :=
        match n.marks.span with
        | none => false
        | some sp => inTallySpan (cfg n) sp n.travel.position } } } := by
  unfold markLeadingEdge
  rw [if_neg (by rw [hdark]; decide)]
  exact if_pos ⟨he, hd⟩

/-- R8: a dark edge during debt changes the level only. -/
theorem markLeadingEdge_in_debt (n : Node) (hdark : n.pins.eyeDark = false) (hd : 0 < n.travel.debt) :
    markLeadingEdge n = { n with pins := { n.pins with eyeDark := true } } := by
  unfold markLeadingEdge
  rw [if_neg (by rw [hdark]; decide)]
  exact if_neg fun h => absurd h.2 (Nat.ne_of_gt hd)

/-- Settles O10: the dark edge by its cases, the light edge by the class of the mark it ends. -/
theorem eyeEdgesMakeMarks : Obligations.EyeEdgesMakeMarks := by
  unfold Obligations.EyeEdgesMakeMarks
  intro s he
  refine ⟨fun hdark hd => after_meaning ?_, fun hdark hd => ?_, fun hdark h => ?_, fun m hdark hd hm hw => ?_⟩
  · rw [meaning, markLeadingEdge_marks s.node he hdark hd]
    refine ⟨⟨_, rfl, rfl, rfl, fun hs => ?_⟩, rfl⟩
    rw [hs]
  · exact gives_of_meaning (c := .markLeadingEdge) (markLeadingEdge_in_debt s.node hdark hd)
  · exact gives_of_meaning (c := .markTrailingEdge) (markTrailingEdge_idle s.node h)
  · have hend := markTrailingEdge_ends s.node m he hdark hd hm
    refine ⟨fun hs => after_meaning ?_, fun hs hc hr => after_meaning ?_, fun hs hc hr hwin => after_meaning ?_,
      fun hs hc => after_meaning ?_⟩
    · rw [meaning, hend, classifyMark_inSpan _ m _ hw hs]
      refine ⟨settleAfter_marks _ _, ?_⟩
      rw [settleAfter_eq]
      rfl
    · have hr' : ¬isRole (markClosed s.node) .print = true := by simpa [markClosed, isRole, lightEdge] using hr
      rw [meaning, hend, classifyMark_colour _ m _ hw hs hc, if_neg hr']
      exact settleAfter_marks _ _
    · rw [meaning, hend, classifyMark_colour _ m _ hw hs hc, settleAfter_marks]
      have hr' : isRole (markClosed s.node) .print = true := hr
      rw [if_pos hr']
      exact colourMark_marks (markClosed s.node) m.edge hwin
    · rw [meaning, hend, classifyMark_stray _ m _ hw hs hc]
      exact settleAfter_marks _ _

/-! ### Register windows and index pulses (R10, R11) -/

theorem eq_of_sansLoop {a b : Node} (h : sansLoop a = sansLoop b) : a = { b with loop := a.loop, nip := a.nip, link := a.link } :=
  calc a = { sansLoop a with loop := a.loop, nip := a.nip, link := a.link } := rfl
    _ = { sansLoop b with loop := a.loop, nip := a.nip, link := a.link } := by rw [h]

theorem loopResult_eq (n : Node) (i : LoopInput) :
    loopResult n i = { n with loop := (loopResult n i).loop, nip := (loopResult n i).nip, link := (loopResult n i).link } :=
  eq_of_sansLoop (loopResult_sansLoop n i)

theorem takeWindow_eq (n : Node) (w : RegWindow) :
    takeWindow n w = { n with marks := (takeWindow n w).marks, loop := (takeWindow n w).loop, nip := (takeWindow n w).nip,
                              link := (takeWindow n w).link } := by
  have h := loopResult_eq { n with marks := (takeWindow n w).marks }
    { number := w.number, error := if w.synthesised then none else w.best.map fun b => posDiff b w.expected, tracked := w.tracked }
  have hm : (takeWindow n w).marks = { n.marks with
      window := none,
      history := if isRole n .emboss then n.marks.history else takeMarkOf w.best n.marks.history,
      indexes := if isRole n .emboss then takeMarkOf w.best n.marks.indexes else n.marks.indexes } := by
    unfold takeWindow
    dsimp only
    rw [loopResult_eq]
  rw [hm] at h ⊢
  exact h

theorem takeWindow_window (n : Node) (w : RegWindow) : (takeWindow n w).marks.window = none := by
  unfold takeWindow
  dsimp only
  rw [loopResult_eq]

theorem registerWindowEndsInAResult : Claims.RegisterWindowEndsInAResult := by
  intro s w hw
  refine ⟨fun hpast => after_meaning ?_, fun hbefore hbest => after_meaning ?_⟩
  · have hc : windowCertain (cfg s.node) s.node.travel.position w = true := by simp [windowCertain, hpast]
    have hm : meaning .registerWindowEnd s.node = holdSettle (takeWindow s.node w) := by
      simp only [meaning, registerWindowEnd, takeIfCertain, hw, if_pos hc]
    rw [hm, holdSettle_marks, holdSettle_loop, holdSettle_nip]
    refine ⟨takeWindow_window s.node w, rfl, rfl, ?_⟩
    rw [holdSettle_eq, takeWindow_eq]
  · have hc : windowCertain (cfg s.node) s.node.travel.position w = false := by
      simp [windowCertain, hbest, hbefore]
    have hm : meaning .registerWindowEnd s.node = holdSettle s.node := by
      simp [meaning, registerWindowEnd, takeIfCertain, hw, hc]
    rw [hm]
    exact holdSettle_eq s.node

/-- R11: the last four index pulses. -/
theorem embossIndex_closed (n : Node) (h : isRole n .emboss = true) (hw : n.marks.window = none) :
    embossIndex n = holdSettle { n with marks := { n.marks with
      indexes := (n.marks.indexes ++ [({ edge := n.travel.position, taken := false } : HistoryMark)]).drop
        (n.marks.indexes.length + 1 - 4) } } := by
  unfold embossIndex
  rw [if_pos h]
  unfold offerCandidate
  simp only [hw, List.length_append, List.length_singleton]

theorem embossIndexEntersTheHistory : Claims.EmbossIndexEntersTheHistory := by
  intro s
  refine ⟨fun he hw hl => after_meaning ?_, fun he => ?_⟩
  · rw [meaning, embossIndex_closed s.node he hw]
    refine ⟨?_, by rw [holdSettle_marks], by rw [holdSettle_eq]⟩
    rw [holdSettle_marks]
    by_cases h4 : s.node.marks.indexes.length < 4
    · have hz : s.node.marks.indexes.length + 1 - 4 = 0 := by omega
      rw [hz, if_pos h4]
      rfl
    · have h1 : s.node.marks.indexes.length + 1 - 4 = 1 := by omega
      rw [h1, if_neg h4, List.drop_one]
      exact List.tail_append_of_ne_nil fun h0 => h4 (by rw [h0]; decide)
  · have h : embossIndex s.node = s.node := if_neg (by rw [he]; decide)
    exact gives_of_meaning (c := .embossIndex) h

/-- Settles O11. -/
theorem registerWindowsAndIndexPulses : Obligations.RegisterWindowsAndIndexPulses :=
  ⟨registerWindowEndsInAResult, embossIndexEntersTheHistory⟩

/-! ### Tally reads (R12, R13, R78) -/

@[simp] theorem tallyCheck_marks (n : Node) : (tallyCheck n).marks = n.marks := by
  unfold tallyCheck
  split <;> rfl

@[simp] theorem formObserved_marks (n : Node) : (formObserved n).marks = n.marks := rfl

/-- R13: the reads and the observed tally after a read. -/
theorem enterRead_marks (n : Node) (r : Option Nat) :
    (enterRead n r).marks = { n.marks with
      reads := (n.marks.reads ++ [r]).drop (n.marks.reads.length - 1)
      observed := match (n.marks.reads ++ [r]).drop (n.marks.reads.length - 1) with
        | [o, w] => observeTally n.marks.observed o w
        | _ => n.marks.observed } := by
  have hobs : ∀ (l : List (Option Nat)) (o : Option Nat),
      (if o = n.marks.observed then { n with marks := { n.marks with reads := l, observed := o } }
       else tallyCheck (formObserved { n with marks := { n.marks with reads := l, observed := o } })).marks =
        { n.marks with reads := l, observed := o } := by
    intro l o
    split
    · rfl
    · rw [tallyCheck_marks, formObserved_marks]
  exact hobs _ _

@[simp] theorem lowerSuspension_marks (n : Node) (st : Bool) : (lowerSuspension n st).marks = n.marks := by
  unfold lowerSuspension
  split
  · rfl
  · dsimp only
    split
    · rw [tallyCheck_marks]
    · rfl

theorem endSpan_marks (n : Node) (sp : TallySpan) (r : Option Nat) :
    (endSpan n sp r).marks = (enterRead { n with marks := { n.marks with span := none } } r).marks :=
  lowerSuspension_marks _ _

theorem tallySpanEnd_over (n : Node) (sp : TallySpan) (h : n.marks.span = some sp)
    (ho : spanOver (cfg n) sp n.travel.position = true) :
    tallySpanEnd n = holdSettle (endSpan n sp (if sp.failed then none else readCells sp.cells)) := by
  unfold tallySpanEnd
  rw [h]
  exact if_pos ho

/-- R12: nine cells with an odd number of dark ones and a code above 0 make a read. -/
theorem readCells_eq (f : Bool) (cells : List Bool) :
    (if f then none else readCells cells) =
      if (!f && decide (cells.length = 9) && decide (cells.count true % 2 = 1) && decide (bitsValue (cells.take 8) ≠ 0)) = true
      then some (bitsValue (cells.take 8)) else none := by
  have hcount : (cells.filter (· = true)).length = cells.count true := by
    rw [List.count_eq_length_filter]
    congr 1
  unfold readCells
  rw [hcount]
  cases f with
  | true => rfl
  | false =>
    simp only [Bool.not_false, Bool.true_and, Bool.and_eq_true, decide_eq_true_eq, Bool.false_eq_true, if_false, and_assoc]

theorem tallySpanEndFollowsTable9 : Claims.TallySpanEndFollowsTable9 := by
  intro s sp hsp
  refine ⟨fun ho => ?_, fun ho => after_meaning ?_⟩
  · have h : tallySpanEnd s.node = s.node := by
      unfold tallySpanEnd
      rw [hsp]
      exact if_neg (by rw [ho]; decide)
    exact gives_of_meaning (c := .tallySpanEnd) h
  · have hover : meaning .tallySpanEnd s.node = _ := tallySpanEnd_over s.node sp hsp ho
    rw [hover, readCells_eq]
    intro code good read
    have hmarks : (holdSettle (endSpan s.node sp read)).marks =
        (enterRead { s.node with marks := { s.node.marks with span := none } } read).marks := by
      rw [holdSettle_marks, endSpan_marks]
    refine ⟨?_, fun h0 => ?_, fun r hr => ?_, ?_⟩
    · exact hmarks ▸ (by rw [enterRead_marks])
    · show (holdSettle (endSpan s.node sp read)).marks.reads = [read] ∧
        (holdSettle (endSpan s.node sp read)).marks.observed = s.node.marks.observed
      rw [hmarks, enterRead_marks]
      dsimp only
      rw [h0]
      exact ⟨rfl, rfl⟩
    · have hreads : (s.node.marks.reads ++ [read]).drop (s.node.marks.reads.length - 1) = [r, read] := by
        obtain h1 | ⟨q, h2⟩ := hr
        · rw [h1]; rfl
        · rw [h2]; rfl
      show (holdSettle (endSpan s.node sp read)).marks.reads = [r, read] ∧
        (holdSettle (endSpan s.node sp read)).marks.observed = _
      rw [hmarks, enterRead_marks]
      dsimp only
      rw [hreads]
      refine ⟨rfl, ?_⟩
      unfold observeTally
      cases s.node.marks.observed <;> cases r <;> cases read <;> grind
    · have he : endSpan s.node sp read = { s.node with
          marks := (endSpan s.node sp read).marks, job := (endSpan s.node sp read).job } := by
        have h := endSpan_sansRead s.node sp read
        calc endSpan s.node sp read
            = { sansRead (endSpan s.node sp read) with
                marks := (endSpan s.node sp read).marks, job := (endSpan s.node sp read).job } := rfl
          _ = _ := by rw [h]; rfl
      show holdSettle (endSpan s.node sp read) = _
      have h0 := holdSettle_eq (endSpan s.node sp read)
      generalize holdSettle (endSpan s.node sp read) = k at h0 ⊢
      rw [h0, he]

/-- R78: the tally check leaves the current job and the suspension. -/
theorem tallyCheck_job (n : Node) :
    (tallyCheck n).job.current = n.job.current ∧ (tallyCheck n).job.suspension = n.job.suspension := by
  unfold tallyCheck
  split <;> exact ⟨rfl, rfl⟩

theorem enterRead_job (n : Node) (r : Option Nat) :
    (enterRead n r).job.current = n.job.current ∧ (enterRead n r).job.suspension = n.job.suspension := by
  have hobs : ∀ (m : Node) (o : Option Nat), m.job = n.job →
      (if o = n.marks.observed then m else tallyCheck (formObserved m)).job.current = n.job.current ∧
      (if o = n.marks.observed then m else tallyCheck (formObserved m)).job.suspension = n.job.suspension := by
    intro m o hm
    split
    · rw [hm]; exact ⟨rfl, rfl⟩
    · obtain ⟨h1, h2⟩ := tallyCheck_job (formObserved m)
      rw [h1, h2]
      simp [formObserved, hm]
  exact hobs _ _ rfl

/-- R78: the read that lowers the suspension to 0 makes the tally check at once. -/
theorem endSpan_last (n : Node) (sp : TallySpan) (r : Option Nat) (hst : sp.stale = false) (hs : n.job.suspension = 1) :
    (endSpan n sp r).job.suspension = 0 ∧ (endSpan n sp r).job.current = n.job.current ∧
    (endSpan n sp r).job.tallyPart = (match (endSpan n sp r).marks.observed, n.job.current with
      | some v, some j => decide (v ≠ j.pattern)
      | _, _ => false) := by
  obtain ⟨hc, hsus⟩ := enterRead_job { n with marks := { n.marks with span := none } } r
  rw [endSpan_marks]
  unfold endSpan lowerSuspension
  generalize enterRead { n with marks := { n.marks with span := none } } r = m at hc hsus ⊢
  have h1 : m.job.suspension = 1 := hsus.trans hs
  have hcur : m.job.current = n.job.current := hc
  rw [if_neg (by simp [hst, h1])]
  simp [h1, tallyCheck, hcur] <;> rfl

theorem tallySuspensionEndsInACheck : Claims.TallySuspensionEndsInACheck := by
  intro s sp hsp hst hsus ho
  have hend := tallySpanEnd_over s.node sp hsp ho
  obtain ⟨h1, h2, h3⟩ := endSpan_last s.node sp (if sp.failed then none else readCells sp.cells) hst hsus
  have hhit : suspensionHit .tallySpanEnd s.node = true := by
    simp [suspensionHit, readEntered, hend, hsus, h1]
  have hm : meaning (.tallySuspensionEnd .tallySpanEnd) s.node = tallySpanEnd s.node := namedCase_pos hhit
  refine after_meaning ?_
  rw [hm, hend, holdSettle_job, holdSettle_marks]
  exact ⟨h1, h2, h3⟩

/-- Settles O12. -/
theorem tallyReadsFollowTable9 : Obligations.TallyReadsFollowTable9 :=
  ⟨tallySpanEndFollowsTable9, tallySuspensionEndsInACheck⟩

end Sys2Proof.Proofs
end

/-! PROOFS. The Trigger Table, the firings of its owners, and the grade of a closing piece (R15 to R17, R103 to R113, R165 to R167). -/
section
namespace Sys2Proof.Proofs

open Sys2Proof.Machine Sys2Proof.Laws Sys2Proof.Claims

/-! ### Requests to the Trigger Table (R15, R17) -/

theorem armTrigger_late (n : Node) (out : TriggerOutput) (p : Pos) (tag : Nat) (h : passed n.travel.position p = true) :
    armTrigger n out p tag = (if out = .cut then cutPulse n else n, .late) := by
  simp [armTrigger, h]

/-- A held tag is re-armed; a tag that is not held takes a place while there is one. -/
theorem armTrigger_armed (n : Node) (out : TriggerOutput) (p : Pos) (tag : Nat) (h : passed n.travel.position p = false)
    (hr : (n.trig.entries.any fun x => decide (x.tag = tag)) = true ∨ n.trig.entries.length < 8) :
    armTrigger n out p tag = ({ n with trig := { n.trig with
      entries := insertTrigger { output := out, position := p, tag := tag }
        (n.trig.entries.filter fun x => decide (x.tag ≠ tag)) } }, .armed) := by
  unfold armTrigger
  dsimp only
  rw [if_neg (by rw [h]; decide)]
  by_cases hheld : ∃ x ∈ n.trig.entries, x.tag = tag
  · have hlt : (n.trig.entries.filter fun x => decide (x.tag ≠ tag)).length < n.trig.entries.length := by
      rw [List.length_filter_lt_length_iff_exists]
      simpa using hheld
    rw [if_pos hlt]
  · have hself : (n.trig.entries.filter fun x => decide (x.tag ≠ tag)) = n.trig.entries := by
      rw [List.filter_eq_self]
      intro x hx
      simpa using fun ht => hheld ⟨x, hx, ht⟩
    have h8 : n.trig.entries.length < 8 := hr.resolve_left (by simpa using hheld)
    rw [hself, if_neg (Nat.lt_irrefl _), if_pos h8]

theorem armTrigger_refused (n : Node) (out : TriggerOutput) (p : Pos) (tag : Nat) (h : passed n.travel.position p = false)
    (hheld : (n.trig.entries.any fun x => decide (x.tag = tag)) = false) (h8 : 8 ≤ n.trig.entries.length) :
    armTrigger n out p tag = (n, .refused) := by
  have hself : (n.trig.entries.filter fun x => decide (x.tag ≠ tag)) = n.trig.entries := by
    rw [List.filter_eq_self]
    simpa using hheld
  unfold armTrigger
  dsimp only
  rw [if_neg (by rw [h]; decide), hself, if_neg (Nat.lt_irrefl _), if_neg (Nat.not_lt.mpr h8)]

theorem armRequestsAreAnswered : Claims.ArmRequestsAreAnswered := by
  refine ⟨fun n out p tag => ⟨fun h => ?_, fun h hr => ?_, armTrigger_refused n out p tag⟩, fun n tag => ⟨rfl, rfl, ?_, ?_⟩⟩
  · rw [armTrigger_late n out p tag h]
    by_cases ho : out = .cut
    · rw [if_pos ho, if_pos ho]
      exact ⟨rfl, rfl, rfl⟩
    · rw [if_neg ho, if_neg ho]
      exact ⟨rfl, rfl, rfl⟩
  · rw [armTrigger_armed n out p tag h hr]
    exact ⟨rfl, rfl⟩
  · rintro ⟨e, he, ht⟩
    exact if_pos (List.any_eq_true.mpr ⟨e, he, by simpa using ht⟩)
  · intro h
    exact if_neg (by simpa using h)

/-! ### Firing (R16) -/

/-- The node without what a firing writes but the Trigger Table: the nip, the rolls and the link. -/
def sansFiring (n : Node) : Node := { n with nip := {}, roll := {}, link := {} }

theorem eq_of_sansFiring {a b : Node} (h : sansFiring a = sansFiring b) :
    a = { b with nip := a.nip, roll := a.roll, link := a.link } :=
  calc a = { sansFiring a with nip := a.nip, roll := a.roll, link := a.link } := rfl
    _ = { sansFiring b with nip := a.nip, roll := a.roll, link := a.link } := by rw [h]

theorem fireCut_trig (n : Node) (e : PlanEntry) (p : Pos) : (fireCut n e p).trig = n.trig := by
  have ho : ∀ (m : Node) (x : Nat), (offerRoll m x).trig = m.trig := by
    intro m x
    unfold offerRoll
    split
    · rfl
    · rw [offerAgain_trig]
  unfold fireCut
  dsimp only
  split
  · rw [ho]
  · rfl

theorem cutFired_sansFiring (n : Node) (tag : Nat) (p : Pos) : sansFiring (cutFired n tag p) = sansFiring n := by
  have hv : sansRoll (cutFired n tag p) = sansRoll n := (cutFired_rollKeeps n tag p).view
  have ht : (cutFired n tag p).trig = n.trig := by
    unfold cutFired
    split
    · rfl
    · exact fireCut_trig n _ p
  have h := congrArg (fun x : Node => sansFiring { x with trig := n.trig }) hv
  calc sansFiring (cutFired n tag p) = sansFiring { cutFired n tag p with trig := (cutFired n tag p).trig } := rfl
    _ = sansFiring { cutFired n tag p with trig := n.trig } := by rw [ht]
    _ = sansFiring n := h

/-- R105: a close request moves an OPEN nip where the gate holds, and is dropped where it does not. -/
theorem closeNip_eq (n : Node) : closeNip n = { n with nip := (closeNip n).nip } := by
  unfold closeNip
  split
  · split <;> rfl
  · rfl

theorem nipFired_sansFiring (n : Node) (tag : Nat) : sansFiring (nipFired n tag) = sansFiring n := by
  have hc : ∀ m : Node, sansFiring (closeNip m) = sansFiring m := fun m => by rw [closeNip_eq]; rfl
  unfold nipFired
  split
  · exact hc _
  · show sansFiring (openNip n) = sansFiring n
    rw [openNip_eq]
    rfl
  · exact hc _

/-- A firing writes its owner, and the pulse at a CUT; the entries of the table stay. -/
theorem fireEntry_sansFiring (n : Node) (e : TriggerEntry) :
    sansFiring (fireEntry n e) = sansFiring (if e.output = .cut then cutPulse n else n) := by
  unfold fireEntry
  split
  · next h => rw [if_pos h]; exact cutFired_sansFiring _ _ _
  · next h => rw [if_neg h]; exact nipFired_sansFiring _ _

/-- R16: each of the due entries at the front fires, and nothing behind them. -/
theorem fireDue_sansFiring (k : Nat) (n : Node) (hk : n.trig.entries.length ≤ k) :
    sansFiring (fireDue k n) = sansFiring { n with trig := {
      entries := n.trig.entries.dropWhile fun e => passed n.travel.position e.position
      cut := if (n.trig.entries.takeWhile fun e => passed n.travel.position e.position).any
          (fun e => decide (e.output = .cut)) then some 20 else n.trig.cut } } := by
  induction k generalizing n with
  | zero =>
    have h0 : n.trig.entries = [] := List.length_eq_zero_iff.mp (Nat.le_zero.mp hk)
    unfold fireDue
    rw [h0]
    show sansFiring n = sansFiring { n with trig := { entries := [], cut := n.trig.cut } }
    rw [← h0]
  | succ k ih =>
    unfold fireDue
    split
    · next h0 =>
      rw [h0]
      show sansFiring n = sansFiring { n with trig := { entries := [], cut := n.trig.cut } }
      rw [← h0]
    · next e rest h0 =>
      by_cases hp : passed n.travel.position e.position = true
      · rw [if_pos hp]
        have hm := eq_of_sansFiring (fireEntry_sansFiring { n with trig := { n.trig with entries := rest } } e)
        generalize fireEntry { n with trig := { n.trig with entries := rest } } e = m at hm ⊢
        have hent : m.trig.entries = rest := by
          rw [hm]
          split <;> rfl
        have hcut : m.trig.cut = if e.output = .cut then some 20 else n.trig.cut := by
          rw [hm]
          split <;> rfl
        have hpos : m.travel.position = n.travel.position := by
          rw [hm]
          split <;> rfl
        have hsame : ∀ t : Triggers, sansFiring { m with trig := t } = sansFiring { n with trig := t } := by
          intro t
          rw [hm]
          split <;> rfl
        have hlen : m.trig.entries.length ≤ k := by
          rw [hent]
          rw [h0] at hk
          exact Nat.le_of_succ_le_succ hk
        rw [ih m hlen, hent, hcut, hpos, hsame, h0,
          List.dropWhile_cons_of_pos (p := fun x : TriggerEntry => passed n.travel.position x.position) hp,
          List.takeWhile_cons_of_pos (p := fun x : TriggerEntry => passed n.travel.position x.position) hp, List.any_cons]
        by_cases ho : e.output = .cut
        · simp [ho]
        · simp [ho]
      · rw [if_neg hp, h0, List.dropWhile_cons_of_neg (p := fun x : TriggerEntry => passed n.travel.position x.position) hp,
          List.takeWhile_cons_of_neg (p := fun x : TriggerEntry => passed n.travel.position x.position) hp]
        show sansFiring n = sansFiring { n with trig := { entries := e :: rest, cut := n.trig.cut } }
        rw [← h0]

theorem triggerFireTakesTheDueEntries : Claims.TriggerFireTakesTheDueEntries := by
  refine ⟨fun s => ?_, fun s h => gives_of_meaning (c := .cutPulseEnd) (if_pos h),
    fun s h => gives_of_meaning (c := .cutPulseEnd) (if_neg h)⟩
  intro due
  refine after_meaning ?_
  have hm : meaning .triggerFire s.node = holdSettle (fireDue s.node.trig.entries.length s.node) := rfl
  have hf := eq_of_sansFiring (fireDue_sansFiring s.node.trig.entries.length s.node (Nat.le_refl _))
  have hidle : s.node.trig.entries.takeWhile due = [] → fireDue s.node.trig.entries.length s.node = s.node := by
    intro h0
    cases hl : s.node.trig.entries with
    | nil => rfl
    | cons e rest =>
      have hp : passed s.node.travel.position e.position = false := by
        refine Classical.byContradiction fun hc => ?_
        rw [hl, List.takeWhile_cons_of_pos (by simpa using hc)] at h0
        cases h0
      show fireDue (rest.length + 1) s.node = s.node
      unfold fireDue
      rw [hl]
      exact if_neg (by rw [hp]; decide)
  have htrig : (meaning .triggerFire s.node).trig = _ := (congrArg Node.trig hm).trans ((holdSettle_trig _).trans
    (congrArg Node.trig hf))
  refine ⟨congrArg Triggers.entries htrig, congrArg Triggers.cut htrig, ?_, fun h0 => ?_⟩
  · rw [hm]
    have h0 := holdSettle_eq (fireDue s.node.trig.entries.length s.node)
    generalize holdSettle (fireDue s.node.trig.entries.length s.node) = k at h0 ⊢
    rw [h0, hf]
  · rw [hm, hidle h0]
    exact holdSettle_eq s.node

/-- A TRIGGER_FIRE at which the first entry alone is due. -/
theorem triggerFire_alone (s : State) (e : TriggerEntry) (rest : List TriggerEntry) (hl : s.node.trig.entries = e :: rest)
    (hp : passed s.node.travel.position e.position = true)
    (hr : ∀ x, rest.head? = some x → passed s.node.travel.position x.position = false) :
    meaning .triggerFire s.node = holdSettle (fireEntry { s.node with trig := { s.node.trig with entries := rest } } e) := by
  have hm := eq_of_sansFiring (fireEntry_sansFiring { s.node with trig := { s.node.trig with entries := rest } } e)
  have hstop : ∀ (k : Nat) (m : Node), m.trig.entries = rest → m.travel.position = s.node.travel.position → fireDue k m = m := by
    intro k m hent hpos
    cases k with
    | zero => rfl
    | succ k =>
      unfold fireDue
      rw [hent]
      cases rest with
      | nil => rfl
      | cons x xs => exact if_neg (by rw [hpos, hr x rfl]; decide)
  show holdSettle (fireDue s.node.trig.entries.length s.node) = _
  rw [hl]
  show holdSettle (fireDue (rest.length + 1) s.node) = _
  unfold fireDue
  rw [hl]
  dsimp only
  rw [if_pos hp, hstop _ _ ?_ ?_]
  · rw [hm]
    split <;> rfl
  · rw [hm]
    split <;> rfl

/-! ### A CUT (R165) -/

/-- R165: with a piece open a firing closes it, opens the next and takes the entry out of the plan. -/
theorem fireCut_roll (n : Node) (pe : PlanEntry) (pos : Pos) (p : OpenPiece) (next : Nat) (hp : n.roll.piece = some p)
    (hn : n.roll.nextRoll = some next) :
    (fireCut n pe pos).roll = { n.roll with
      plan := n.roll.plan.filter fun x => decide (x.cut ≠ pe.cut)
      piece := some (pieceOf pe next pos), nextRoll := some (succIn rollRange next)
      awaiting := awaitPiece n.roll (closePiece n { p with cutMoved := p.cutMoved || pe.moved } pe.cut pos) } := by
  have ho : ∀ (m : Node) (x : Nat), (offerRoll m x).roll = m.roll := by
    intro m x
    unfold offerRoll
    split
    · rfl
    · rw [offerAgain_roll]
  unfold fireCut
  rw [hp, hn]
  dsimp only
  rw [ho]

theorem cutsCloseAndOpenPieces : Claims.CutsCloseAndOpenPieces := by
  rintro s e pe a p next ⟨rest, hl, hpass, hrest⟩ hout hfind harm hpiece hnext
  refine after_meaning ?_
  have hm : (meaning .triggerFire s.node).roll =
      (fireCut (cutPulse { s.node with trig := { s.node.trig with entries := rest } }) pe e.position).roll := by
    rw [triggerFire_alone s e rest hl hpass hrest, holdSettle_roll]
    unfold fireEntry
    rw [hout]
    dsimp only
    unfold cutFired
    have hf : (cutPulse { s.node with trig := { s.node.trig with entries := rest } }).roll.plan.find?
        (fun x => decide (x.arming.map (·.tag) = some e.tag)) = some pe := hfind
    rw [hf]
  rw [hm, fireCut_roll (cutPulse { s.node with trig := { s.node.trig with entries := rest } }) pe e.position p next hpiece hnext]
  refine ⟨?_, rfl, rfl, _, rfl, rfl, rfl, rfl, rfl, rfl, rfl⟩
  simp [pieceOf, harm]

/-! ### Grades (R166, R167) -/

theorem rollCause_getLsbD (i j : Nat) (b : Bool) (hj : j < 16) : (rollCause i b).getLsbD j = (b && decide (i = j)) := by
  cases b with
  | false => exact BitVec.getLsbD_zero
  | true =>
    unfold rollCause
    rw [if_pos rfl, BitVec.getLsbD_ofNat, Nat.testBit_two_pow]
    simp [hj]

/-- More than one value: some two records differ. -/
theorem mixed_iff (f : RepeatRecord → Nat) (l : List RepeatRecord) :
    mixed f l = true ↔ ∃ r ∈ l, ∃ x ∈ l, f r ≠ f x := by
  cases l with
  | nil => simp [mixed]
  | cons a l =>
    simp only [mixed, List.any_eq_true, decide_eq_true_eq]
    constructor
    · rintro ⟨x, hx, hne⟩
      exact ⟨a, List.mem_cons_self, x, List.mem_cons_of_mem _ hx, Ne.symm hne⟩
    · rintro ⟨r, hr, x, hx, hne⟩
      by_cases hra : f r = f a
      · have hxa : f x ≠ f a := fun h => hne (hra.trans h.symm)
        refine ⟨x, (List.mem_cons.mp hx).resolve_left (fun h => hxa (by rw [h])), hxa⟩
      · exact ⟨r, (List.mem_cons.mp hr).resolve_left (fun h => hra (by rw [h])), hra⟩

/-- R167: each cause that a test can find is the bit of that test. -/
theorem holdTests_getLsbD (n : Node) (p : OpenPiece) (count : Nat) (recs : List RepeatRecord) :
    (holdTests n p count recs).getLsbD 2 = recs.any (fun r => decide (r.heldBy ≠ 0)) ∧
    (∀ q, p.pattern.bind (findPattern (cfg n)) = some q →
      (holdTests n p count recs).getLsbD 3 =
        ((requiredSlots n q).any fun c => recs.any (slotFails (cfg n).registerTolerance c)) ∧
      (holdTests n p count recs).getLsbD 4 = (q.embossOffset.isSome && recs.any (fun r => decide (r.nip ≠ some .full)))) ∧
    (holdTests n p count recs).getLsbD 5 = (learntRole n .shade && mixed (·.batch) recs) ∧
    (holdTests n p count recs).getLsbD 6 = (learntRole n .shade && recs.any (fun r => decide (r.batch = 0))) ∧
    (holdTests n p count recs).getLsbD 7 = decide (recs.length < count) ∧
    (holdTests n p count recs).getLsbD 8 = (p.cutMoved || decide (p.full < count) || mixed (·.job) recs) ∧
    (holdTests n p count recs).getLsbD 9 = p.batchLate := by
  have hbit : ∀ j, j < 16 → (holdTests n p count recs).getLsbD j = _ := fun j hj => by
    simp only [holdTests, BitVec.getLsbD_or, rollCause_getLsbD _ j _ hj]
    rfl
  refine ⟨?_, fun q hq => ⟨?_, ?_⟩, ?_, ?_, ?_, ?_, ?_⟩
  · rw [hbit 2 (by decide)]; simp
  · rw [hbit 3 (by decide), hq]; simp
  · rw [hbit 4 (by decide), hq]; simp
  · rw [hbit 5 (by decide)]; simp
  · rw [hbit 6 (by decide)]; simp
  · rw [hbit 7 (by decide)]; simp
  · rw [hbit 8 (by decide)]; simp
  · rw [hbit 9 (by decide)]; simp

theorem carriedCauses_eq (p : OpenPiece) : carriedCauses p =
    ((if p.start then 1 else 0) ||| (if p.cutMoved then 0x100 else 0) ||| (if p.batchLate then 0x200 else 0)) := by
  unfold carriedCauses rollCause
  rfl

theorem gradePiece_waste (n : Node) (p : OpenPiece) (count : Nat) (recs : List RepeatRecord) (h : p.kind = .waste) :
    gradePiece n p count recs = (.waste, carriedCauses p, 0) := by
  simp [gradePiece, h]

theorem gradePiece_short (n : Node) (p : OpenPiece) (count : Nat) (recs : List RepeatRecord) (h : p.kind = .roll)
    (hc : count < (cfg n).shortMin) : gradePiece n p count recs = (.waste, 2 ||| carriedCauses p, 0) := by
  simp [gradePiece, h, hc]
  rfl

theorem gradePiece_tested (n : Node) (p : OpenPiece) (count : Nat) (recs : List RepeatRecord) (h : p.kind = .roll)
    (hc : (cfg n).shortMin ≤ count) :
    (holdTests n p count recs ≠ 0 →
      (gradePiece n p count recs).1 = .hold ∧ (gradePiece n p count recs).2.1 = holdTests n p count recs) ∧
    (holdTests n p count recs = 0 → gradePiece n p count recs = (if count < p.full then .short else .first, 0, 0)) := by
  have hw : p.kind ≠ .waste := by rw [h]; decide
  unfold gradePiece
  rw [if_neg hw, if_neg (Nat.not_lt.mpr hc)]
  dsimp only
  refine ⟨fun ht => ?_, fun ht => ?_⟩
  · rw [if_pos ht]
    exact ⟨rfl, rfl⟩
  · rw [if_neg fun h => h ht]
    split <;> rfl

theorem piecesAreGraded : Claims.PiecesAreGraded := by
  intro n p count recs
  obtain ⟨h2, h34, h5, h6, h7, h8, h9⟩ := holdTests_getLsbD n p count recs
  dsimp only
  rw [← carriedCauses_eq]
  refine ⟨gradePiece_waste n p count recs, gradePiece_short n p count recs, gradePiece_tested n p count recs, ?_,
    fun q hq => ⟨?_, ?_⟩, ?_, ?_, ?_, ?_, ?_⟩
  · rw [h2]; simp
  · rw [(h34 q hq).1]; simp
  · rw [(h34 q hq).2]; simp
  · rw [h5, Bool.and_eq_true, mixed_iff]
  · rw [h6]; simp
  · rw [h7]; simp
  · rw [h8, Bool.or_eq_true, Bool.or_eq_true, mixed_iff, decide_eq_true_eq, or_assoc]
  · rw [h9]

/-! ### The firings of the nip (R107, R113) -/

theorem closeNip_dropped (n : Node) (h : closeGate n = false) : closeNip n = n := by
  simp [closeNip, h]

theorem closeNip_dropped_state (n : Node) (h : closeGate n = false) : (closeNip n).nip.state = n.nip.state := by
  rw [closeNip_dropped n h]

theorem closeNip_moves (n : Node) (h : closeGate n = true) (ho : n.nip.state = .opened) :
    (closeNip n).nip.state = .closing ∧ (closeNip n).nip.actuation = some (cfg n).actuationTime := by
  unfold closeNip
  rw [if_pos h, ho]
  exact ⟨rfl, rfl⟩

theorem closeNip_keeps_plan (n : Node) :
    (closeNip n).nip.regular = n.nip.regular ∧ (closeNip n).nip.passage = n.nip.passage := by
  unfold closeNip
  split
  · split <;> exact ⟨rfl, rfl⟩
  · exact ⟨rfl, rfl⟩

theorem openNip_passage (n : Node) : (openNip n).nip.passage = n.nip.passage := by
  unfold openNip
  split <;> rfl

theorem nipFiringsMoveTheNip : Claims.NipFiringsMoveTheNip := by
  rintro s e ⟨rest, hl, hpass, hrest⟩
  have hfire : e.output ≠ .cut → (meaning .triggerFire s.node).nip =
      (nipFired { s.node with trig := { s.node.trig with entries := rest } } e.tag).nip := by
    intro ho
    rw [triggerFire_alone s e rest hl hpass hrest, holdSettle_nip]
    unfold fireEntry
    split
    · next h => exact absurd h ho
    · rfl
  refine ⟨fun ho ht => after_meaning ?_, fun ho ht => after_meaning ?_, fun ho ht => after_meaning ?_⟩
  · rw [hfire (by rw [ho]; decide), ht]
    obtain ⟨hreg, hpas⟩ := closeNip_keeps_plan
      { s.node with trig := { s.node.trig with entries := rest }, nip := { s.node.nip with regular := false } }
    refine ⟨hreg, hpas, fun hg hs => closeNip_moves _ hg hs, fun hg => ?_⟩
    exact closeNip_dropped_state _ hg
  · rw [hfire (by rw [ho]; decide), ht]
    refine ⟨openNip_state { s.node with trig := { s.node.trig with entries := rest } }, fun q hq => ?_⟩
    show (openNip { s.node with trig := { s.node.trig with entries := rest } }).nip.passage.map _ = _
    rw [openNip_passage]
    dsimp only
    rw [hq]
    rfl
  · rw [hfire (by rw [ho]; decide), ht]
    obtain ⟨-, hpas⟩ := closeNip_keeps_plan (setPassage { s.node with trig := { s.node.trig with entries := rest } } none)
    exact ⟨hpas, fun hg hs => (closeNip_moves (setPassage { s.node with trig := { s.node.trig with entries := rest } } none)
      hg hs).1⟩

/-- Settles O13: the requests by their answers, the firings of the due entries in order, the grade by its tests. -/
theorem triggersArmFireAndCancel : Obligations.TriggersArmFireAndCancel :=
  ⟨triggerFireTakesTheDueEntries, armRequestsAreAnswered, cutsCloseAndOpenPieces, piecesAreGraded, nipFiringsMoveTheNip⟩

end Sys2Proof.Proofs
end

/-! PROOFS. The register loop: the runs at a result, the value of a correction, the end of a step train (R82 to R99). -/
section
namespace Sys2Proof.Proofs

open Sys2Proof.Machine Sys2Proof.Laws Sys2Proof.Claims

/-! ### The runs at a result (R85 to R91) -/

theorem offerRegister_loop (n : Node) (i : LoopInput) (steps : Int) : (offerRegister n i steps).loop = n.loop := by
  unfold offerRegister
  rw [offerPlain_loop]
  unfold takeReport
  split
  · split <;> rfl
  · rfl

/-- The loop without what a correction writes and without its last error: the state, the runs and the settle count. -/
def loopRuns (l : RegLoop) : RegLoop :=
  { l with train := none, dir := false, lastSteps := 0, lastStepsRepeat := none, lastError := none, lastErrorRepeat := none }

theorem issueCorrection_runs (c : Config) (x : Nat) (steps : Int) (l : RegLoop) :
    loopRuns (issueCorrection c x steps l) = loopRuns l := by
  unfold issueCorrection
  dsimp only
  split <;> rfl

theorem loopResult_present (n : Node) (i : LoopInput) (e : Int) (h : i.error = some e) :
    loopRuns (loopResult n i).loop = loopRuns (presentResult (cfg n) (qualifies n i) e n.loop) := by
  have hl : loopRuns (loopResult n i).loop =
      loopRuns (if corrects (presentResult (cfg n) (qualifies n i) e n.loop) then
        issueCorrection (cfg n) i.number (correctionSteps (cfg n) (presentResult (cfg n) (qualifies n i) e n.loop).state e)
          (presentResult (cfg n) (qualifies n i) e n.loop)
        else presentResult (cfg n) (qualifies n i) e n.loop) := by
    unfold loopResult
    dsimp only
    rw [offerRegister_loop, h]
    dsimp only
    split <;> rfl
  rw [hl]
  split
  · exact issueCorrection_runs _ _ _ _
  · rfl

theorem loopResult_absent (n : Node) (i : LoopInput) (h : i.error = none) :
    loopRuns (loopResult n i).loop = loopRuns (absentResult n.loop) := by
  unfold loopResult
  dsimp only
  rw [offerRegister_loop, h]
  rfl

/-! ### The rows at the end of a register window -/

theorem windowCertain_of_past (c : Config) (p : Pos) (w : RegWindow) (h : (captureRange c : Int) ≤ posDiff p w.expected) :
    windowCertain c p w = true := by
  simp [windowCertain, h]

/-- REGISTER_WINDOW_END with the window's result certain takes the result. -/
theorem registerWindowEnd_certain (n : Node) (w : RegWindow) (hw : n.marks.window = some w)
    (h : windowCertain (cfg n) n.travel.position w = true) : registerWindowEnd n = holdSettle (takeWindow n w) := by
  simp only [registerWindowEnd, takeIfCertain, hw, if_pos h]

/-- A row whose move the taken result makes completes with the node after the result. -/
theorem resultRow_registerWindowEnd (moves : LoopState → LoopState → Bool) (n : Node) (w : RegWindow)
    (hw : n.marks.window = some w) (h : windowCertain (cfg n) n.travel.position w = true)
    (hmove : moves n.loop.state (takeWindow n w).loop.state = true) :
    namedCase (resultMoves moves) .registerWindowEnd n = holdSettle (takeWindow n w) := by
  have ht : occur .registerWindowEnd n = holdSettle (takeWindow n w) := registerWindowEnd_certain n w hw h
  have hhit : resultMoves moves .registerWindowEnd n = true := by
    show (windowResult n (occur .registerWindowEnd n)).any _ = true
    rw [ht]
    unfold windowResult
    rw [hw, holdSettle_marks, takeWindow_window]
    show (moves n.loop.state (holdSettle (takeWindow n w)).loop.state || false) = true
    rw [holdSettle_loop, hmove]
    rfl
  exact (namedCase_pos hhit).trans ht

/-- The result that the window hands to the loop. -/
def windowInput (w : RegWindow) : LoopInput :=
  { number := w.number, error := if w.synthesised then none else w.best.map fun b => posDiff b w.expected, tracked := w.tracked }

theorem takeWindow_present (n : Node) (w : RegWindow) (b : Pos) (hs : w.synthesised = false) (hb : w.best = some b) :
    loopRuns (takeWindow n w).loop =
      loopRuns (presentResult (cfg n) (qualifies n (windowInput w)) (posDiff b w.expected) n.loop) ∧
    (takeWindow n w).loop.lastError = some (posDiff b w.expected) := by
  have he : (windowInput w).error = some (posDiff b w.expected) := by simp [windowInput, hs, hb]
  exact ⟨loopResult_present _ (windowInput w) _ he, he⟩

theorem takeWindow_absent (n : Node) (w : RegWindow) (hb : w.best = none) :
    loopRuns (takeWindow n w).loop = loopRuns (absentResult n.loop) ∧ (takeWindow n w).loop.lastError = none := by
  have he : (windowInput w).error = none := by
    unfold windowInput
    dsimp only
    rw [hb]
    split <;> rfl
  exact ⟨loopResult_absent _ (windowInput w) he, he⟩

/-- Equal runs are equal field by field. -/
theorem loopRuns_fields {a b : RegLoop} (h : loopRuns a = loopRuns b) :
    a.state = b.state ∧ a.openRun = b.openRun ∧ a.lockRun = b.lockRun ∧ a.unlockRun = b.unlockRun ∧ a.absentRun = b.absentRun := by
  have hstate := congrArg RegLoop.state h
  have hopen := congrArg RegLoop.openRun h
  have hlock := congrArg RegLoop.lockRun h
  have hunlock := congrArg RegLoop.unlockRun h
  have habsent := congrArg RegLoop.absentRun h
  exact ⟨hstate, hopen, hlock, hunlock, habsent⟩

theorem presentResult_eq (c : Config) (q : Bool) (e : Int) (l : RegLoop) :
    (l.state = .opened → presentResult c q e l = openPresent c q e { l with absentRun := 0 }) ∧
    (l.state = .capture → presentResult c q e l = capturePresent c e { l with absentRun := 0 }) ∧
    (l.state = .locked → presentResult c q e l = lockedPresent c e { l with absentRun := 0 }) := by
  refine ⟨fun h => ?_, fun h => ?_, fun h => ?_⟩
  · simp only [presentResult, h]
  · simp only [presentResult, h]
  · simp only [presentResult, h]

theorem openPresent_second (c : Config) (e : Int) (l : RegLoop) (h : l.openRun = 1) :
    (openPresent c true e l).state = (if 2 * e.natAbs ≤ captureRange c then .capture else .far) ∧
    (openPresent c true e l).openRun = 0 := by
  unfold openPresent isNear
  rw [if_neg (by decide), h, if_neg (by decide)]
  by_cases hn : 2 * e.natAbs ≤ captureRange c
  · rw [if_pos (decide_eq_true hn), if_pos hn]
    exact ⟨rfl, rfl⟩
  · rw [if_neg (by simpa using hn), if_neg hn]
    exact ⟨rfl, rfl⟩

theorem capturePresent_fourth (c : Config) (e : Int) (l : RegLoop) (h : l.lockRun = 3) (he : e.natAbs ≤ c.lockWindow) :
    (capturePresent c e l).state = .locked ∧ (capturePresent c e l).unlockRun = 0 := by
  unfold capturePresent
  rw [if_neg (Nat.not_lt.mpr he), h, if_neg (by decide)]
  exact ⟨rfl, rfl⟩

theorem lockedPresent_second (c : Config) (e : Int) (l : RegLoop) (h : l.unlockRun = 1) (he : c.unlockWindow < e.natAbs) :
    lockedPresent c e l = enterCapture c e l := by
  unfold lockedPresent
  rw [if_neg (Nat.not_le.mpr he), h, if_neg (by decide)]

theorem absentResult_third (l : RegLoop) (hs : l.state ≠ .opened) (h : l.absentRun = 2) :
    absentResult l = { l with state := .opened, openRun := 0, lockRun := 0, unlockRun := 0, absentRun := 0 } := by
  unfold absentResult
  split
  · next ho => exact absurd ho hs
  · rw [h, if_neg (by decide)]

/-- Settles O14, by the runs of the result that the window hands over. -/
theorem loopRunsMoveTheLoop : Obligations.LoopRunsMoveTheLoop := by
  intro s c w hrun hw hsyn hpast
  have hc : cfg s.node = c := cfg_of_runs hrun
  subst hc
  have hcert := windowCertain_of_past (cfg s.node) s.node.travel.position w hpast
  refine ⟨fun b hb => ?_, fun hb hs habs => after_meaning ?_⟩
  · obtain ⟨hruns, hlast⟩ := takeWindow_present s.node w b hsyn hb
    obtain ⟨hopened, hcapture, hlocked⟩ := presentResult_eq (cfg s.node) (qualifies s.node (windowInput w))
      (posDiff b w.expected) s.node.loop
    refine ⟨fun ho hr htr htk hheld => after_meaning ?_, fun ho hr he => after_meaning ?_, fun ho hr he => after_meaning ?_⟩
    · have hq : qualifies s.node (windowInput w) = true := by simp [qualifies, windowInput, htr, htk, hheld]
      rw [hopened ho, hq] at hruns
      obtain ⟨hstate, hopen, -⟩ := loopRuns_fields hruns
      obtain ⟨h1, h2⟩ := openPresent_second (cfg s.node) (posDiff b w.expected) { s.node.loop with absentRun := 0 } hr
      have hst := hstate.trans h1
      rw [meaning, openRunHit, resultRow_registerWindowEnd _ s.node w hw hcert ?_, holdSettle_loop]
      · exact ⟨hst, hlast, hopen.trans h2⟩
      · rw [ho, hst]
        split <;> rfl
    · rw [hcapture ho] at hruns
      obtain ⟨hstate, -, -, hunlock, -⟩ := loopRuns_fields hruns
      obtain ⟨h1, h2⟩ := capturePresent_fourth (cfg s.node) (posDiff b w.expected) { s.node.loop with absentRun := 0 } hr he
      have hst := hstate.trans h1
      rw [meaning, lockRunHit, resultRow_registerWindowEnd _ s.node w hw hcert ?_, holdSettle_loop]
      · exact ⟨hst, hunlock.trans h2, hlast⟩
      · rw [ho, hst]
        rfl
    · rw [hlocked ho, lockedPresent_second (cfg s.node) (posDiff b w.expected) { s.node.loop with absentRun := 0 } hr he] at hruns
      obtain ⟨hstate, -, hlock, -⟩ := loopRuns_fields hruns
      have hst : (takeWindow s.node w).loop.state = .capture := hstate
      rw [meaning, unlockRunHit, resultRow_registerWindowEnd _ s.node w hw hcert ?_, holdSettle_loop]
      · exact ⟨hst, hlock, hlast⟩
      · rw [ho, hst]
        rfl
  · obtain ⟨hruns, hlast⟩ := takeWindow_absent s.node w hb
    obtain ⟨hstate, -, hlock, -, habsent⟩ := loopRuns_fields hruns
    rw [absentResult_third s.node.loop hs habs] at hstate hlock habsent
    have hst : (takeWindow s.node w).loop.state = .opened := hstate
    rw [meaning, absentRunHit, resultRow_registerWindowEnd _ s.node w hw hcert ?_, holdSettle_loop]
    · exact ⟨hst, habsent, hlock, hlast⟩
    · rw [hst]
      simpa using hs

/-! ### Corrections (R94) and step trains (R96) -/

theorem clampInt_bounded (m : Nat) (z : Int) : (clampInt (-(m : Int)) m z).natAbs ≤ m := by
  unfold clampInt
  split
  · omega
  · split <;> omega

/-- A clamp to a symmetric range keeps the sign. -/
theorem clampInt_sign (m : Nat) (z : Int) :
    (z ≤ 0 → clampInt (-(m : Int)) m z ≤ 0) ∧ (0 ≤ z → 0 ≤ clampInt (-(m : Int)) m z) := by
  unfold clampInt
  constructor
  · intro h
    split
    · omega
    · split <;> omega
  · intro h
    split
    · omega
    · split <;> omega

/-- Rounding keeps the sign. -/
theorem roundHalfAway_sign (num : Int) (den : Nat) (hd : 0 < den) :
    (num ≤ 0 → roundHalfAway num den ≤ 0) ∧ (0 ≤ num → 0 ≤ roundHalfAway num den) := by
  have hpos : ∀ x : Int, 0 ≤ x → 0 ≤ (2 * x + den) / (2 * den) := fun x hx =>
    Int.ediv_nonneg (by omega) (by omega)
  unfold roundHalfAway
  constructor
  · intro h
    split
    · have h0 : num = 0 := by omega
      rw [h0]
      exact Int.le_of_eq (Int.ediv_eq_zero_of_lt (by omega) (by omega))
    · have := hpos (-num) (by omega)
      omega
  · intro h
    rw [if_pos h]
    exact hpos num h

/-- The nearest whole number of a number that is not negative, an exact half upwards. -/
theorem ediv_nearest (x : Int) (den : Nat) (hx : 0 ≤ x) (hd : 0 < den) :
    0 ≤ (2 * x + den) / (2 * den) ∧ -(den : Int) ≤ 2 * (x - (2 * x + den) / (2 * den) * den) ∧
    2 * (x - (2 * x + den) / (2 * den) * den) < den := by
  have hpos : (0 : Int) < 2 * den := by omega
  refine ⟨Int.ediv_nonneg (by omega) (by omega), ?_⟩
  have h1 := Int.ediv_mul_add_emod (2 * x + den) (2 * den)
  have h2 := Int.emod_nonneg (2 * x + den) (by omega : (2 * (den : Int)) ≠ 0)
  have h3 := Int.emod_lt_of_pos (2 * x + den) hpos
  have hm : (2 * x + den) / (2 * den) * (2 * (den : Int)) = 2 * ((2 * x + den) / (2 * den) * den) :=
    Int.mul_left_comm _ _ _
  rw [hm] at h1
  constructor <;> omega

theorem roundHalfAway_nearest (num : Int) (den : Nat) (hd : 0 < den) : NearestWhole num den (roundHalfAway num den) := by
  unfold NearestWhole roundHalfAway
  split
  · next h =>
    obtain ⟨h0, hlo, hhi⟩ := ediv_nearest num den h hd
    generalize (2 * num + den) / (2 * den) = r at h0 hlo hhi ⊢
    have hr : ((r.natAbs * den : Nat) : Int) = r * den := by
      rw [Int.natCast_mul, Int.natAbs_of_nonneg h0]
    generalize r * (den : Int) = rd at hr hlo hhi ⊢
    constructor
    · omega
    · intro heq
      omega
  · next h =>
    obtain ⟨h0, hlo, hhi⟩ := ediv_nearest (-num) den (by omega) hd
    generalize (2 * -num + den) / (2 * den) = r at h0 hlo hhi ⊢
    have hr : (((-r).natAbs * den : Nat) : Int) = r * den := by
      rw [Int.natCast_mul, Int.natAbs_neg, Int.natAbs_of_nonneg h0]
    have hneg : -r * (den : Int) = -(r * den) := Int.neg_mul _ _
    rw [hneg]
    generalize r * (den : Int) = rd at hr hlo hhi ⊢
    constructor
    · omega
    · intro heq
      omega

/-- R94: the correction outside the dead zone of LOCKED. -/
theorem correctionSteps_eq (c : Config) (st : LoopState) (e : Int) (h : ¬(st = .locked ∧ 2 * e.natAbs ≤ c.lockWindow)) :
    correctionSteps c st e = clampInt (-(c.maxCorrection : Int)) c.maxCorrection
      (roundHalfAway (-e * c.captureGain * c.compensatorScale) (if st = .locked then 16000 * 2 ^ c.lockReduction else 16000)) := by
  unfold correctionSteps
  dsimp only
  rw [if_neg h]
  congr 2
  split
  · omega
  · rfl

theorem correctionSteps_dead (c : Config) (st : LoopState) (e : Int) (h : st = .locked ∧ 2 * e.natAbs ≤ c.lockWindow) :
    correctionSteps c st e = 0 := if_pos h

theorem correctionsAreBounded : Claims.CorrectionsAreBounded := by
  intro c st e
  by_cases hd : st = .locked ∧ 2 * e.natAbs ≤ c.lockWindow
  · have h0 : correctionSteps c st 0 = 0 := correctionSteps_dead c st 0 ⟨hd.1, by simp⟩
    rw [correctionSteps_dead c st e hd]
    exact ⟨Nat.zero_le _, fun _ => Int.le_refl _, fun _ => Int.le_refl _, h0⟩
  · have hden : 0 < (if st = .locked then 16000 * 2 ^ c.lockReduction else 16000) := by
      split
      · exact Nat.mul_pos (by decide) (Nat.two_pow_pos _)
      · decide
    have hscale : ∀ x : Int, x * c.captureGain * c.compensatorScale = x * ((c.captureGain * c.compensatorScale : Nat) : Int) := by
      intro x
      rw [Int.natCast_mul, Int.mul_assoc]
    have hk : (0 : Int) ≤ ((c.captureGain * c.compensatorScale : Nat) : Int) := Int.natCast_nonneg _
    have hsign := fun num => roundHalfAway_sign num _ hden
    refine ⟨?_, fun he => ?_, fun he => ?_, ?_⟩
    · rw [correctionSteps_eq c st e hd]
      exact clampInt_bounded _ _
    · rw [correctionSteps_eq c st e hd, hscale]
      exact (clampInt_sign _ _).1 ((hsign _).1 (Int.mul_nonpos_of_nonpos_of_nonneg (by omega) hk))
    · rw [correctionSteps_eq c st e hd, hscale]
      exact (clampInt_sign _ _).2 ((hsign _).2 (Int.mul_nonneg (by omega) hk))
    · by_cases heq : st = .locked
      · exact correctionSteps_dead c st 0 ⟨heq, by simp⟩
      · rw [correctionSteps_eq c st 0 fun h => heq h.1, hscale]
        exact Int.le_antisymm ((clampInt_sign _ _).1 ((hsign _).1 (by simp))) ((clampInt_sign _ _).2 ((hsign _).2 (by simp)))

theorem correctionsTakeTheGain : Claims.CorrectionsTakeTheGain := by
  intro c st e
  refine ⟨fun hs he => correctionSteps_dead c st e ⟨hs, he⟩, fun hd => ⟨_, roundHalfAway_nearest _ _ ?_, ?_⟩⟩
  · split
    · exact Nat.mul_pos (by decide) (Nat.two_pow_pos _)
    · decide
  · rw [correctionSteps_eq c st e hd]
    rfl

theorem stepTrainCompletionStartsSettling : Claims.StepTrainCompletionStartsSettling := by
  intro s t ht
  refine ⟨fun hd => gives_of_meaning (c := .stepTrainCompletion) ?_,
    fun len hd hlen hpos => gives_of_meaning (c := .stepTrainCompletion) ?_⟩
  · simp [meaning, stepTrainCompletion, ht, hd]
  · have hne : settleLength s.node ≠ some 0 := by
      rw [hlen]
      simpa using Nat.pos_iff_ne_zero.mp hpos
    have hcount : settleCount s.node = ceilDiv (cfg s.node).printToEye len + 1 := by
      obtain ⟨k, rfl⟩ : ∃ k, len = k + 1 := ⟨len - 1, by omega⟩
      unfold settleCount
      rw [hlen]
      rfl
    show stepTrainCompletion s.node = _
    unfold stepTrainCompletion
    rw [ht]
    dsimp only
    rw [if_pos hd, if_neg hne, hcount]

/-- Settles O15: the value of a correction by its rounding and its clamp, and the end of a train. -/
theorem correctionsAndTrains : Obligations.CorrectionsAndTrains :=
  ⟨correctionsAreBounded, correctionsTakeTheGain, stepTrainCompletionStartsSettling⟩

end Sys2Proof.Proofs
end

/-! PROOFS. The nip at the end of its movement and of a coverage span, and the issuer of the KEY (R46 to R51, R77, R105 to R117). -/
section
namespace Sys2Proof.Proofs

open Sys2Proof.Machine Sys2Proof.Laws Sys2Proof.Claims

/-! ### The nip (R106, R109 to R116) -/

theorem actuationCompletion_over (n : Node) (h : n.nip.actuation = some 0) :
    actuationCompletion n = { n with nip := (actuationCompletion n).nip } ∧
    (actuationCompletion n).nip.passage = n.nip.passage := by
  unfold actuationCompletion
  rw [if_pos h]
  dsimp only
  split
  · exact ⟨rfl, rfl⟩
  · split
    · rw [closeNip_eq]
      exact ⟨rfl, (closeNip_keeps_plan _).2⟩
    · exact ⟨rfl, rfl⟩
  · exact ⟨rfl, rfl⟩

theorem actuationCompletion_closing (n : Node) (h : n.nip.actuation = some 0) (hs : n.nip.state = .closing) :
    actuationCompletion n = setNip { n with nip := { n.nip with actuation := none } } .closed := by
  simp only [actuationCompletion, if_pos h, hs]

/-- The opened nip whose close does not wait any more. -/
def openedNip (n : Node) : Node := setNip { n with nip := { n.nip with actuation := none } } .opened

theorem actuationCompletion_opening (n : Node) (h : n.nip.actuation = some 0) (hs : n.nip.state = .opening) :
    actuationCompletion n =
      if n.nip.waitingClose then
        closeNip { openedNip n with nip := { (openedNip n).nip with waitingClose := false } }
      else openedNip n := by
  simp only [actuationCompletion, if_pos h, hs]
  rfl

theorem closeNip_waitingClose (n : Node) (h : n.nip.state = .opened) : (closeNip n).nip.waitingClose = n.nip.waitingClose := by
  unfold closeNip
  split
  · rw [h]
    rfl
  · rfl

theorem actuationCompletionEndsTheMovement : Claims.ActuationCompletionEndsTheMovement := by
  intro s h
  obtain ⟨hframe, hpassage⟩ := actuationCompletion_over s.node h
  refine after_meaning ⟨hframe, hpassage, fun hs => ?_, fun hs hw => ?_, fun hs hw => ?_⟩
  · rw [meaning, actuationCompletion_closing s.node h hs]
    exact ⟨rfl, rfl⟩
  · rw [meaning, actuationCompletion_opening s.node h hs, hw]
    exact ⟨rfl, rfl⟩
  · rw [meaning, actuationCompletion_opening s.node h hs, hw, if_pos rfl]
    have hgate : closeGate { openedNip s.node with nip := { (openedNip s.node).nip with waitingClose := false } } =
        closeGate s.node := rfl
    refine ⟨closeNip_waitingClose _ rfl, ?_⟩
    by_cases hg : closeGate s.node = true
    · rw [if_pos hg]
      exact closeNip_moves _ (hgate.trans hg) rfl
    · rw [if_neg hg, closeNip_dropped _ (hgate.trans (by simpa using hg))]
      exact ⟨rfl, rfl⟩

theorem coveragePassageEndsWithAReport : Claims.CoveragePassageEndsWithAReport := by
  intro s sp next rest hsp
  refine ⟨fun h => gives_of_meaning (c := .coveragePassageEnd) ?_,
    fun h hl => gives_of_meaning (c := .coveragePassageEnd) ?_⟩
  · show coveragePassageEnd s.node = s.node
    unfold coveragePassageEnd
    rw [hsp]
    exact if_neg (by rw [h]; decide)
  · have hdec : decideCoverage sp = if sp.sawClosed && !sp.sawOther then .full
        else if sp.sawOther && !sp.sawClosed && !sp.sawMoving then .none else .partly := by
      simp [decideCoverage, and_assoc]
    have hlen : (s.node.nip.reports ++ [(sp.number, decideCoverage sp)]).length - 4 = 0 := by
      rw [List.length_append, List.length_singleton]
      omega
    show coveragePassageEnd s.node = _
    unfold coveragePassageEnd
    rw [hsp]
    dsimp only
    rw [if_pos h, hlen, List.drop_zero, hdec]

/-- Settles O16: the end of a movement by the state of the nip, the coverage report by what the span saw. -/
theorem nipMovementsAndCoverage : Obligations.NipMovementsAndCoverage :=
  ⟨actuationCompletionEndsTheMovement, coveragePassageEndsWithAReport⟩

/-! ### What stays in the queue -/

theorem removeFirst_keeps {α : Type} (p : α → Bool) (l m : List α) (h : removeFirst p l = some m) (a : α) (ha : a ∈ l)
    (hp : p a = false) : a ∈ m := by
  induction l generalizing m with
  | nil => cases ha
  | cons x xs ih =>
    unfold removeFirst at h
    split at h
    · next hx =>
      cases h
      rcases List.mem_cons.mp ha with rfl | hxs
      · rw [hp] at hx; cases hx
      · exact hxs
    · obtain ⟨m', hm', rfl⟩ := Option.map_eq_some_iff.mp h
      rcases List.mem_cons.mp ha with rfl | hxs
      · exact List.mem_cons_self
      · exact List.mem_cons_of_mem _ (ih m' hm' hxs)

/-- R43: a telegram that is not routine leaves the queue by no offer. -/
theorem enqueue_keeps_entry (n : Node) (t : Telegram) (r : Bool) (b : OfferBy) (q : QEntry) (hq : q ∈ n.link.queue)
    (hr : q.telegram.routine = false) : q ∈ (enqueue n t r b).1.link.queue := by
  unfold enqueue
  dsimp only
  split
  · exact hq
  · split
    · exact List.mem_append_left _ hq
    · split
      · exact hq
      · split
        · next m hm =>
          refine List.mem_append_left _ ?_
          cases hl : n.link.queue with
          | nil => rw [hl] at hq; cases hq
          | cons x xs =>
            rw [hl] at hq hm
            obtain ⟨m', hm', rfl⟩ := Option.map_eq_some_iff.mp hm
            rcases List.mem_cons.mp hq with rfl | hxs
            · exact List.mem_cons_self
            · exact List.mem_cons_of_mem _ (removeFirst_keeps _ xs m' hm' q hxs hr)
        · exact hq

theorem holdOffer_keeps_entry (n : Node) (q : QEntry) (hq : q ∈ n.link.queue) (hr : q.telegram.routine = false) :
    q ∈ (holdOffer n).link.queue := by
  unfold holdOffer
  split
  · exact hq
  · next w _ =>
    have hl := enqueue_keeps_entry n (statementTelegram w) false .hold q hq hr
    split
    · exact hq
    · split
      · next m hm => rw [hm] at hl; exact hl
      · next m hm => rw [hm] at hl; exact hl
      · next m _ _ _ hm => rw [hm] at hl; exact hl

theorem holdOfferWanted_keeps_entry (n : Node) (q : QEntry) (hq : q ∈ n.link.queue) (hr : q.telegram.routine = false) :
    q ∈ (holdOfferWanted n).link.queue := by
  unfold holdOfferWanted
  rw [holdAbsorb_link]
  exact holdOffer_keeps_entry n q hq hr

theorem holdSettle_keeps_entry (n : Node) (q : QEntry) (hq : q ∈ n.link.queue) (hr : q.telegram.routine = false) :
    q ∈ (holdSettle n).link.queue := by
  have ha : q ∈ (holdAbsorb n).link.queue := by
    rw [holdAbsorb_link]
    exact hq
  unfold holdSettle
  split
  · exact hq
  · split
    · exact hq
    · dsimp only
      split
      · exact ha
      · exact holdOfferWanted_keeps_entry _ q ha hr

theorem holdReport_keeps_entry (n : Node) (q : QEntry) (hq : q ∈ n.link.queue) (hr : q.telegram.routine = false) :
    q ∈ (holdReport n).link.queue := by
  have hs := holdSettle_keeps_entry n q hq hr
  unfold holdReport quietRepeat
  split
  · exact hs
  · split
    · exact hs
    · split
      · rw [setHoldState_link]
        exact hs
      · unfold clearHold
        split
        · exact hs
        · refine holdOfferWanted_keeps_entry _ q ?_ hr
          rw [setHoldState_link]
          exact hs

/-! ### The issuer (R46 to R49) -/

@[simp] theorem testSwitch_track (n : Node) (j : Option JobRecord) (x : Nat) : (testSwitch n j x).1.track = n.track := by
  unfold testSwitch
  split
  · rfl
  · split
    · split <;> rfl
    · rfl

@[simp] theorem testSwitch_link (n : Node) (j : Option JobRecord) (x : Nat) : (testSwitch n j x).1.link = n.link := by
  unfold testSwitch
  split
  · rfl
  · split
    · split <;> rfl
    · rfl

@[simp] theorem testSwitch_st (n : Node) (j : Option JobRecord) (x : Nat) : (testSwitch n j x).1.st = n.st := by
  unfold testSwitch
  split
  · rfl
  · split
    · split <;> rfl
    · rfl

/-- R77: the length of a repeat writes the checks of the job alone. -/
theorem lengthCheck_eq (n : Node) (len : Nat) : lengthCheck n len = { n with job := (lengthCheck n len).job } := by
  unfold lengthCheck
  dsimp only
  split <;> rfl

@[simp] theorem lengthCheck_track (n : Node) (len : Nat) : (lengthCheck n len).track = n.track := by rw [lengthCheck_eq]
@[simp] theorem lengthCheck_link (n : Node) (len : Nat) : (lengthCheck n len).link = n.link := by rw [lengthCheck_eq]
@[simp] theorem lengthCheck_st (n : Node) (len : Nat) : (lengthCheck n len).st = n.st := by rw [lengthCheck_eq]

theorem lengthCheck_observedLength (n : Node) (len : Nat) : (lengthCheck n len).job.observedLength = some len := by
  unfold lengthCheck
  dsimp only
  split
  · show (countLength _ _).observedLength = _
    unfold countLength
    split <;> rfl
  · rfl

theorem boundary_track (n : Node) (e : Pos) (t : Nat) (c : Bool) : (boundary n e t c).track = n.track := by rw [boundary_eq]
theorem boundary_job (n : Node) (e : Pos) (t : Nat) (c : Bool) : (boundary n e t c).job = n.job := by rw [boundary_eq]
theorem boundary_link (n : Node) (e : Pos) (t : Nat) (c : Bool) : (boundary n e t c).link = n.link := by rw [boundary_eq]

theorem issueRepeat_track (n : Node) (x len : Nat) (i : Pos) :
    (issueRepeat n x len i).track = { n.track with
      splices := (takeSplices n.track.splices i len).1, nextRepeat := some (succIn repeatRange x), newestIssued := some x,
      prevIndex := some i } := by
  simp [issueRepeat]

theorem issueRepeat_observedLength (n : Node) (x len : Nat) (i : Pos) :
    (issueRepeat n x len i).job.observedLength = some len := by
  unfold issueRepeat
  rw [offerPlain_job]
  exact lengthCheck_observedLength _ len

/-- R48: the REPEAT of the issued number joins the queue of a joined node. -/
theorem issueRepeat_queues (n : Node) (x len : Nat) (i : Pos) (hj : isJoined n = true) (hd : downQueued n = false)
    (hl : n.link.queue.length < 16) :
    ∃ q ∈ (issueRepeat n x len i).link.queue, ∃ pl, q.telegram = .repeat_ pl ∧ pl.number = x ∧ pl.length = len := by
  have hst : n.st = .joined := by simpa [isJoined] using hj
  unfold issueRepeat
  dsimp only
  generalize hm : lengthCheck _ len = m
  have hmst : m.st = .joined := by rw [← hm]; simpa using hst
  have hmlink : m.link = n.link := by rw [← hm]; simp
  have hmay : ∀ pl, mayOffer m (.repeat_ pl) = true := by
    intro pl
    unfold mayOffer
    rw [hmst]
    show (!downQueued m) = true
    unfold downQueued at hd ⊢
    rw [hmlink, hd]
    rfl
  unfold offerPlain
  rw [enqueue_placed _ _ _ _ (hmay _) (by rw [hmlink]; exact hl)]
  exact ⟨_, List.mem_append_right _ List.mem_cons_self, _, rfl, rfl, rfl⟩

theorem cylinderIndexIssuesARepeat : Claims.CylinderIndexIssuesARepeat := by
  intro s hk hr
  refine ⟨fun hp => after_meaning ?_, fun p x hp hx => ⟨fun hshort => gives_of_meaning (c := .cylinderIndex) ?_,
    fun hlong hj hd hl => after_meaning ?_⟩⟩
  · have hm : meaning .cylinderIndex s.node = holdSettle (boundary
        { s.node with track := { s.node.track with prevIndex := some s.node.travel.position } } s.node.travel.position
        s.node.now true) := by
      have hi : indexIssues s.node = none := by
        unfold indexIssues
        rw [hp]
      show cylinderIndex s.node = _
      unfold cylinderIndex
      rw [hi]
      exact if_pos ⟨hk, hr, by rw [hp]; rfl⟩
    rw [hm, holdSettle_track, holdSettle_travel, boundary_track]
    exact ⟨rfl, rfl⟩
  · have hi : indexIssues s.node = none := by
      unfold indexIssues
      rw [hp, hx]
      exact if_neg (by rintro ⟨-, -, h⟩; exact absurd h (Nat.not_le.mpr hshort))
    show cylinderIndex s.node = s.node
    unfold cylinderIndex
    rw [hi]
    exact if_neg (by rw [hp]; simp)
  · rw [meaning, cylinderIndex_issues s.node p x hk hr hp hx hlong]
    obtain ⟨q, hq, pl, ht, hnum, hlen⟩ := issueRepeat_queues s.node x
      (min (s.node.travel.position - p).toNat 65535) s.node.travel.position hj hd (by omega)
    rw [holdReport_track, holdReport_job, boundary_track, boundary_job, issueRepeat_track, issueRepeat_observedLength]
    refine ⟨rfl, rfl, rfl, rfl, rfl, q, holdReport_keeps_entry _ q ?_ (by rw [ht]; rfl), pl, ht, hnum, hlen⟩
    rw [boundary_link]
    exact hq

/-! ### The length runs (R77) -/

/-- Under the job in force there is no switch to make, and the length counts against its pattern. -/
theorem issueRepeat_job (n : Node) (x len : Nat) (i : Pos) (j : JobRecord) (pat : Pattern) (hc : n.job.current = some j)
    (hg : n.job.given = some j) (ho : n.job.inOffer = none) (hpat : findPattern (cfg n) j.pattern = some pat) :
    (issueRepeat n x len i).job = { countLength { n.job with observedLength := some len } (lengthInside pat len) with
      observedPattern := (issueRepeat n x len i).job.observedPattern } := by
  have hkey : keyJob n = some j := by
    unfold keyJob
    rw [ho]
    exact hg
  have hsw : ∀ m : Node, m.job = n.job → testSwitch m (keyJob m) x = (m, false) := by
    intro m hm
    have hkm : keyJob m = some j := by
      unfold keyJob
      rw [hm]
      exact hkey
    have hdue : switchDue m j x = false := by
      unfold switchDue
      rw [hm, hc]
      simp
    unfold testSwitch
    rw [hkm]
    exact if_neg (by rw [hdue]; decide)
  have hcur : ∀ m : Node, m.job.current = n.job.current → m.image = n.image → m.st = n.st → curPattern m = some pat := by
    intro m hm him hst
    have hcfg : cfg m = cfg n := by simp [cfg, him]
    unfold curPattern
    rw [hm, hc, hcfg]
    exact hpat
  unfold issueRepeat
  dsimp only
  rw [offerPlain_job, hsw _ ?_]
  · unfold lengthCheck
    dsimp only
    rw [hcur _ ?_ ?_ ?_]
    all_goals rfl
  · rfl

theorem lengthRunsReachFour : Claims.LengthRunsReachFour := by
  intro s p x j pat hk hr hp hx hl hc hg ho hpat
  have hissue := cylinderIndex_issues s.node p x hk hr hp hx hl
  have hjob := issueRepeat_job s.node x (min (s.node.travel.position - p).toNat 65535) s.node.travel.position j pat hc hg ho hpat
  have ht : (cylinderIndex s.node).job = (issueRepeat s.node x (min (s.node.travel.position - p).toNat 65535)
      s.node.travel.position).job := by
    rw [hissue, holdReport_job, boundary_job]
  rw [hjob] at ht
  refine ⟨fun hout h3 => ?_, fun hin h3 hpart => ?_⟩
  · have hli : lengthInside pat (min (s.node.travel.position - p).toNat 65535) = false := by
      unfold lengthInside
      rw [Bool.and_eq_false_iff, decide_eq_false_iff_not, decide_eq_false_iff_not]
      exact Classical.not_and_iff_not_or_not.mp hout
    have h4 : (cylinderIndex s.node).job.outside = 4 ∧ (cylinderIndex s.node).job.inside = 0 ∧
        (cylinderIndex s.node).job.lengthPart = true := by
      rw [ht, hli]
      simp [countLength, h3]
    have hhit : outsideHit .cylinderIndex s.node = true := by
      simp [outsideHit, h3, occur, h4.1]
    refine after_meaning (c := .outsideRunReached .cylinderIndex) ?_
    rw [meaning, namedCase_pos hhit]
    exact ⟨h4.1, h4.2.1, h4.2.2, by simp [jobMismatch, occur, h4.2.2]⟩
  · have hli : lengthInside pat (min (s.node.travel.position - p).toNat 65535) = true := by
      simp only [lengthInside, Bool.and_eq_true, decide_eq_true_eq]
      exact hin
    have h4 : (cylinderIndex s.node).job.inside = 4 ∧ (cylinderIndex s.node).job.outside = 0 ∧
        (cylinderIndex s.node).job.lengthPart = false := by
      rw [ht, hli]
      simp [countLength, h3]
    have hhit : insideHit .cylinderIndex s.node = true := by
      simp [insideHit, hpart, occur, h4.1, h4.2.2]
    refine after_meaning (c := .insideRunReached .cylinderIndex) ?_
    rw [meaning, namedCase_pos hhit]
    exact h4

/-! ### The splice detector (R50) -/

theorem spliceFresh_eq (n : Node) : spliceFresh n = true ↔
    ∀ q, n.track.lastSplice = some q → 1000 ≤ (n.travel.position - q).toNat := by
  unfold spliceFresh
  cases n.track.lastSplice with
  | none => simp
  | some q => simp

/-- R40: LINK_FAULT is active and its run of own completions starts over. -/
def Faulted (n : Node) : Prop := n.link.linkFault = true ∧ n.link.ownRun = 0

theorem enqueue_faulted (n : Node) (t : Telegram) (r : Bool) (b : OfferBy) (h : Faulted n) : Faulted (enqueue n t r b).1 := by
  unfold enqueue
  dsimp only
  split
  · exact h
  · split
    · exact h
    · split
      · exact h
      · split
        · exact h
        · exact ⟨rfl, rfl⟩

theorem holdOffer_faulted (n : Node) (h : Faulted n) : Faulted (holdOffer n) := by
  unfold holdOffer
  split
  · exact h
  · next w _ =>
    have hl := enqueue_faulted n (statementTelegram w) false .hold h
    split
    · exact h
    · split
      · next m hm => rw [hm] at hl; exact hl
      · next m hm => rw [hm] at hl; exact hl
      · next m _ _ _ hm => rw [hm] at hl; exact hl

theorem holdSettle_faulted (n : Node) (h : Faulted n) : Faulted (holdSettle n) := by
  have ha : Faulted (holdAbsorb n) := by
    unfold Faulted
    rw [holdAbsorb_link]
    exact h
  unfold holdSettle
  split
  · exact h
  · split
    · exact h
    · dsimp only
      split
      · exact ha
      · unfold holdOfferWanted Faulted
        rw [holdAbsorb_link]
        exact holdOffer_faulted _ ha

theorem spliceDetectionQueuesTheArrival : Claims.SpliceDetectionQueuesTheArrival := by
  intro s hk hst
  refine ⟨fun hfresh => ⟨fun hl => gives_of_meaning (c := .spliceDetection) ?_, fun hl => after_meaning ?_⟩,
    fun q hq hnear => gives_of_meaning (c := .spliceDetection) ?_⟩
  · show spliceDetection s.node = _
    unfold spliceDetection
    dsimp only
    rw [if_pos ⟨hk, hst, (spliceFresh_eq s.node).mpr hfresh⟩, if_pos hl]
    rfl
  · have hm : meaning .spliceDetection s.node = holdSettle (raiseLinkFault { s.node with track := { s.node.track with
        lastSplice := some s.node.travel.position, spliceOverflows := s.node.track.spliceOverflows + 1 } }) := by
      show spliceDetection s.node = _
      unfold spliceDetection
      dsimp only
      rw [if_pos ⟨hk, hst, (spliceFresh_eq s.node).mpr hfresh⟩, if_neg (Nat.not_lt.mpr hl)]
    obtain ⟨hfault, hrun⟩ := holdSettle_faulted (raiseLinkFault { s.node with track := { s.node.track with
        lastSplice := some s.node.travel.position, spliceOverflows := s.node.track.spliceOverflows + 1 } }) ⟨rfl, rfl⟩
    rw [hm]
    refine ⟨hfault, hrun, holdSettle_track _, ?_⟩
    rw [holdSettle_eq]
    rfl
  · show spliceDetection s.node = s.node
    unfold spliceDetection
    refine if_neg ?_
    rintro ⟨-, -, hf⟩
    exact absurd ((spliceFresh_eq s.node).mp hf q hq) (Nat.not_le.mpr hnear)

/-- Settles O17: the issue by `cylinderIndex_issues` and the offer of REPEAT, the runs by `countLength`. -/
theorem theKeyIssuesAndQueuesSplices : Obligations.TheKeyIssuesAndQueuesSplices :=
  ⟨cylinderIndexIssuesARepeat, lengthRunsReachFour, spliceDetectionQueuesTheArrival⟩

end Sys2Proof.Proofs
end

/-! PROOFS. The tracker: key marks matched, stray or unclaimed, window ends and the LOST hold-off (R52 to R62). -/
section
namespace Sys2Proof.Proofs

open Sys2Proof.Machine Sys2Proof.Laws Sys2Proof.Claims

/-! ### What the match report leaves -/

/-- R73: with no job given there is no switch to test, so R62 moves no tracker. -/
theorem reportSwitch_none (n : Node) (r : MatchReport) (h : n.job.given = none) : reportSwitch n r = (n, false) := by
  unfold reportSwitch testSwitch
  rw [h]

theorem reportFalls_none (n : Node) (r : MatchReport) (h : n.job.given = none) : reportFalls n r = false := by
  unfold reportFalls
  rw [reportSwitch_none n r h]
  rfl

theorem matchReport_track (n : Node) (r : MatchReport) (h : n.job.given = none) : (matchReport n r).track = n.track := by
  rw [(matchReport_reportKeeps n r).track, reportFalls_none n r h]
  rfl

/-- Of the blocks that a report reaches, the Travel Unit alone writes the travel. -/
theorem reportRest_travel (n : Node) (r : MatchReport) (falls made : Bool) :
    (reportRest n r falls made).travel = (travelReport n r falls).travel := by
  have hroll : ∀ (m : Node) x e real sw, (rollReport m x e real sw).travel = m.travel := fun m x e real sw => by
    have h := congrArg Node.travel (rollReport_rollKeeps m x e real sw).view
    exact h
  have hshade : ∀ (m : Node) x sw, (shadeReport m x sw).travel = m.travel := fun m x sw => by
    have h := congrArg Node.travel (shadeReport_shadeKeeps m x sw).view
    exact h
  have hnip : ∀ (m : Node) x e real sw s mi, (nipReport m x e real sw s mi).travel = m.travel := fun m x e real sw s mi => by
    have h := congrArg Node.travel (nipReport_sansNip m x e real sw s mi)
    exact h
  have hopen : ∀ (m : Node), (reportOpen m r).travel = m.travel := fun m => by
    have h := congrArg Node.travel (openWindow_sansMarks m r.number r.edge (!r.real) (decide (m.track.tracker = .track)))
    exact h
  have hclose : ∀ (m : Node), (settleReport (closeWindow m)).travel = m.travel := fun m => by
    have h := congrArg Node.travel (closeWindow_sansMarks m)
    exact h
  have hloop : ∀ (m : Node), (loopToOpen m).travel = m.travel := fun m => by
    unfold loopToOpen
    split <;> rfl
  have hhold : ∀ (m : Node), (holdLoop m).travel = m.travel := fun m => by
    unfold holdLoop
    split
    · exact hloop m
    · rfl
  have hlen : ∀ (m : Node) x, (reportLength m x).travel = m.travel := fun m x => by
    unfold reportLength
    split
    · rw [lengthCheck_travel]
    · rfl
  unfold reportRest
  dsimp only
  rw [hroll, hshade, hnip, hopen, hclose, hhold]
  split
  · rw [hloop, hlen]
  · rw [hlen]

/-- R6, R60: the report of a synthesised mark clears the repeat speed memory and leaves the position. -/
theorem matchReport_travel_synth (n : Node) (r : MatchReport) (h : n.job.given = none) (hr : r.real = false) :
    (matchReport n r).travel = { n.travel with lastBoundary := none, lastSpeed := none, speedStep := false } := by
  rw [matchReport_eq, reportRest_travel, reportFalls_none n r h, reportSwitch_none n r h]
  unfold travelReport
  rw [hr]
  rfl

/-! ### What a failed read leaves -/

theorem tallyCheck_given (n : Node) : (tallyCheck n).job.given = n.job.given := by
  unfold tallyCheck
  split <;> rfl

theorem enterRead_given (n : Node) (r : Option Nat) : (enterRead n r).job.given = n.job.given := by
  unfold enterRead
  dsimp only
  split
  · split
    · rfl
    · rw [tallyCheck_given]
      rfl
  · split
    · rfl
    · rw [tallyCheck_given]
      rfl

theorem endSpan_given (n : Node) (sp : TallySpan) (r : Option Nat) : (endSpan n sp r).job.given = n.job.given := by
  have hr := enterRead_given { n with marks := { n.marks with span := none } } r
  unfold endSpan lowerSuspension
  split
  · exact hr
  · dsimp only
    split
    · rw [tallyCheck_given]
      exact hr
    · exact hr

theorem failSpan_given (n : Node) : (failSpan n).job.given = n.job.given := by
  unfold failSpan
  split
  · rfl
  · exact endSpan_given n _ none

theorem failSpan_sansRead (n : Node) : sansRead (failSpan n) = sansRead n := by
  unfold failSpan
  split
  · rfl
  · exact endSpan_sansRead n _ none

theorem failSpan_track (n : Node) : (failSpan n).track = n.track := by
  have h := congrArg Node.track (failSpan_sansRead n)
  exact h

theorem failSpan_image (n : Node) : (failSpan n).image = n.image := by
  have h := congrArg Node.image (failSpan_sansRead n)
  exact h

/-! ### A match (R53 to R58) -/

theorem findMatch_pending (pending : RepeatRecord → Bool) (x : Nat) (skipped l : List RepeatRecord)
    (m : RepeatRecord × List RepeatRecord × Nat) (h : findMatch pending x skipped l = some m) : pending m.1 = true := by
  induction l generalizing skipped with
  | nil => cases h
  | cons r rest ih =>
    unfold findMatch at h
    split at h
    · next hp =>
      split at h
      · cases h
        exact hp
      · exact ih _ h
    · exact ih _ h

/-- R52: a pending record is not the one that here names. -/
theorem pending_ne_here (n : Node) (r : RepeatRecord) (h : isPending n r = true) : n.track.here ≠ some r.number := by
  intro heq
  unfold isPending at h
  rw [heq] at h
  have hf : fwd repeatRange r.number r.number = 0 :=
    Nat.sub_mod_eq_zero_of_mod_eq (by simp)
  simp [repeatNewer, newer, hf] at h

/-- The track that a match of `m` at `edge` sets, the state of the tracker aside. -/
theorem takeMatch_track (n : Node) (m : RepeatRecord × List RepeatRecord × Nat) (edge : Pos) :
    ∃ len pos, (takeMatch n m edge).track = { n.track with
      here := some m.1.number, lastDepth := some m.2.2, missed := n.track.missed + BitVec.ofNat 32 m.2.1.length,
      predLen := len, predicted := pos } := ⟨_, _, rfl⟩

/-- A key mark whose depth fits a pending record makes its report. -/
theorem offerMark_matches (n : Node) (edge : Pos) (time : Nat) (new : RepeatRecord)
    (m : RepeatRecord × List RepeatRecord × Nat) (hlast : n.track.table.getLast? = some new) (hpos : 0 < new.length)
    (hm : findMatch (isPending n) (expectedDepth (cfg n).keyToEye new.length) [] n.track.table = some m) :
    offerMark n edge time = matchReport (matchedState (takeMatch n m edge))
      { number := m.1.number, edge := edge, time := time, real := true, wasTrack := decide (n.track.tracker = .track),
        missed := m.2.1 } := by
  have hne : new.length ≠ 0 := Nat.pos_iff_ne_zero.mp hpos
  have hdepth : depthTenths n = some (expectedDepth (cfg n).keyToEye new.length) := by
    unfold depthTenths newestRecord
    rw [hlast]
    exact congrArg some (if_neg hne)
  have huse : useDepth n = n := by
    unfold useDepth newestRecord
    rw [hlast]
    exact if_neg (by simpa using hne)
  have hr : markReport n edge time = some (matchedState (takeMatch n m edge),
      { number := m.1.number, edge := edge, time := time, real := true, wasTrack := decide (n.track.tracker = .track),
        missed := m.2.1 }) := by
    unfold markReport
    rw [hdepth, Option.bind_some, hm, huse]
    rfl
  unfold offerMark
  rw [hr]

/-- R57 to R59: the tracker after a match, by its state before; everything else of the track stays. -/
theorem matchedState_track (n : Node) :
    (n.track.tracker = .align → n.track.alignCount < 3 →
      (matchedState n).track = { n.track with alignCount := n.track.alignCount + 1 }) ∧
    (n.track.tracker = .align → 3 ≤ n.track.alignCount →
      (matchedState n).track = { n.track with tracker := .track, alignCount := 4, missCount := 0, tracked := true }) ∧
    (n.track.tracker = .track → (matchedState n).track = { n.track with missCount := 0 }) ∧
    (n.track.tracker = .search → (matchedState n).track = { n.track with tracker := .align, alignCount := 1 }) := by
  refine ⟨fun h hc => ?_, fun h hc => ?_, fun h => ?_, fun h => ?_⟩
  · have hlt : n.track.alignCount + 1 < 4 := by omega
    simp [matchedState, h, hlt]
  · have hge : ¬n.track.alignCount + 1 < 4 := by omega
    simp only [matchedState, h, if_neg hge]
  · simp [matchedState, h]
  · simp [matchedState, h]

theorem matchedState_given (n : Node) : (matchedState n).job.given = n.job.given := by
  unfold matchedState
  split
  · split <;> rfl
  · rfl
  · rfl

/-- A key mark that is not stray, in a tracker that matches. -/
theorem keyMark_offered (n : Node) (edge : Pos) (time : Nat) (hs : strayKeyMark n edge = false) (hi : n.track.tracker ≠ .idle)
    (hl : n.track.tracker ≠ .lost) : keyMark n edge time = startSpan (offerMark (failSpan n) edge time) edge := by
  have htrack : trackMark (failSpan n) edge time = offerMark (failSpan n) edge time := by
    unfold trackMark
    rw [failSpan_track]
    cases ht : n.track.tracker with
    | idle => exact absurd ht hi
    | lost => exact absurd ht hl
    | search => rfl
    | align => rfl
    | track => rfl
  unfold keyMark
  rw [if_neg (by rw [hs]; decide), htrack]

theorem keyMark_unclaimed (n : Node) (edge : Pos) (time : Nat) (h : n.track.tracker = .idle ∨ n.track.tracker = .lost) :
    keyMark n edge time = startSpan (countUnclaimed (failSpan n)) edge := by
  have hs : strayKeyMark n edge = false := by
    rcases h with h | h <;> simp [strayKeyMark, h]
  have htrack : trackMark (failSpan n) edge time = countUnclaimed (failSpan n) := by
    unfold trackMark
    rw [failSpan_track]
    rcases h with h | h <;> rw [h]
  unfold keyMark
  rw [if_neg (by rw [hs]; decide), htrack]

@[simp] theorem settleAfter_track (b n : Node) : (settleAfter b n).track = n.track := by rw [settleAfter_eq]
@[simp] theorem settleAfter_travel (b n : Node) : (settleAfter b n).travel = n.travel := by rw [settleAfter_eq]
@[simp] theorem settleAfter_loop (b n : Node) : (settleAfter b n).loop = n.loop := by rw [settleAfter_eq]
@[simp] theorem settleAfter_shade (b n : Node) : (settleAfter b n).shade = n.shade := by rw [settleAfter_eq]

theorem keyWidth_true {w : Int} (h1 : 40 ≤ w) (h2 : w ≤ 60) : keyWidth w = true := by simp [keyWidth, h1, h2]

theorem markTrailingEdge_key (n : Node) (m : Mark) (he : eyeRole n = true) (hdark : n.pins.eyeDark = true)
    (hd : n.travel.debt = 0) (hm : n.marks.mark = some m) (h40 : 40 ≤ posDiff n.travel.position m.edge)
    (h60 : posDiff n.travel.position m.edge ≤ 60) :
    markTrailingEdge n = settleAfter n (keyMark (markClosed n) m.edge m.time) := by
  rw [markTrailingEdge_ends n m he hdark hd hm]
  unfold classifyMark
  rw [if_pos (keyWidth_true h40 h60)]

theorem keyMarkMatchesTheRecord : Claims.KeyMarkMatchesTheRecord := by
  intro s m new r skipped d he hdark hd hm h40 h60 hstray hgiven hlast hpos hfind
  have hkey := markTrailingEdge_key s.node m he hdark hd hm h40 h60
  have hstray' : strayKeyMark (markClosed s.node) m.edge = false := hstray
  have hpend : isPending s.node r = true := findMatch_pending _ _ _ _ _ hfind
  have htrack : (failSpan (markClosed s.node)).track = s.node.track := failSpan_track (markClosed s.node)
  have hcfg : cfg (failSpan (markClosed s.node)) = cfg s.node := by
    unfold cfg
    rw [failSpan_image]
    rfl
  have hpending : isPending (failSpan (markClosed s.node)) = isPending s.node := by
    funext x
    unfold isPending
    rw [htrack]
  have hoffer := offerMark_matches (failSpan (markClosed s.node)) m.edge m.time new (r, skipped, d)
    (by rw [htrack]; exact hlast) hpos (by rw [htrack, hcfg, hpending]; exact hfind)
  obtain ⟨len, pos, htake⟩ := takeMatch_track (failSpan (markClosed s.node)) (r, skipped, d) m.edge
  rw [htrack] at htake
  have hgive : (matchedState (takeMatch (failSpan (markClosed s.node)) (r, skipped, d) m.edge)).job.given = none := by
    rw [matchedState_given]
    exact (failSpan_given (markClosed s.node)).trans hgiven
  have hresult : s.node.track.tracker ≠ .idle → s.node.track.tracker ≠ .lost →
      (markTrailingEdge s.node).track =
        (matchedState (takeMatch (failSpan (markClosed s.node)) (r, skipped, d) m.edge)).track ∧
      (markTrailingEdge s.node).marks.span = some { edge := m.edge, cells := [], failed := false, stale := false } := by
    intro hi hl
    rw [hkey, keyMark_offered _ _ _ hstray' hi hl, settleAfter_track, settleAfter_marks, hoffer]
    exact ⟨matchReport_track _ _ hgive, rfl⟩
  obtain ⟨hfew, hfull, hin, hsearch⟩ := matchedState_track (takeMatch (failSpan (markClosed s.node)) (r, skipped, d) m.edge)
  rw [htake] at hfew hfull hin hsearch
  refine ⟨fun hi hl => after_meaning ?_, fun ha hc => after_meaning ?_⟩
  · obtain ⟨ht, hspan⟩ := hresult hi hl
    rw [meaning]
    refine ⟨?_, ?_, ?_, ?_, ?_, ⟨_, hspan, rfl, rfl⟩, ?_, ?_⟩
    all_goals
      rw [ht]
      cases htr : s.node.track.tracker with
      | idle => exact absurd htr hi
      | lost => exact absurd htr hl
      | search => rw [hsearch htr]
      | track => rw [hin htr]; try exact htr
      | align =>
        by_cases hc : s.node.track.alignCount < 3
        · rw [hfew htr hc]; try simp [hc, htr]
        · rw [hfull htr (Nat.le_of_not_lt hc)]; try simp [hc]
  · have hi : s.node.track.tracker ≠ .idle := by rw [ha]; decide
    have hl : s.node.track.tracker ≠ .lost := by rw [ha]; decide
    obtain ⟨ht, -⟩ := hresult hi hl
    rw [hfull ha (Nat.le_of_eq hc.symm)] at ht
    have hhit : alignHit .trailingEdge s.node = true := by
      have hocc : (occur .trailingEdge s.node).track = _ := ht
      unfold alignHit reported
      dsimp only
      rw [hocc, ha, hc]
      simpa using pending_ne_here s.node r hpend
    rw [meaning, namedCase_pos hhit]
    show (markTrailingEdge s.node).track.tracker = _ ∧ _
    have hocc : (occur .trailingEdge s.node).track = _ := ht
    rw [hocc, ht]
    exact ⟨rfl, rfl, rfl, rfl, rfl⟩

theorem unmatchedKeyMarksAreCounted : Claims.UnmatchedKeyMarksAreCounted := by
  intro s m he hdark hd hm h40 h60
  have hkey := markTrailingEdge_key s.node m he hdark hd hm h40 h60
  refine ⟨fun hs => after_meaning ?_, fun ht => after_meaning ?_⟩
  · have hstray : keyMark (markClosed s.node) m.edge m.time = countStray (markClosed s.node) := if_pos hs
    rw [meaning, hkey, hstray, settleAfter_marks, settleAfter_track]
    exact ⟨rfl, rfl⟩
  · rw [meaning, hkey, keyMark_unclaimed (markClosed s.node) _ _ ht, settleAfter_marks, settleAfter_track]
    refine ⟨?_, _, rfl, rfl, rfl⟩
    show ({ (failSpan (markClosed s.node)).track with unclaimed := (failSpan (markClosed s.node)).track.unclaimed + 1 } :
      Track) = _
    rw [failSpan_track]
    rfl

/-- Settles O18: the match by `findMatch`, the unmatched marks by the branch of `keyMark`. -/
theorem keyMarksMatchOrAreCounted : Obligations.KeyMarksMatchOrAreCounted :=
  ⟨keyMarkMatchesTheRecord, unmatchedKeyMarksAreCounted⟩

end Sys2Proof.Proofs
end

/-! PROOFS. The ends of the tracker windows and of the LOST hold-off (R55, R58 to R61). -/
section
namespace Sys2Proof.Proofs

open Sys2Proof.Machine Sys2Proof.Laws Sys2Proof.Claims

/-! ### Moves of the tracker -/

/-- The repeat speed memory is cleared, and STEP_SPEED with it. -/
def forgotten (t : Travel) : Travel := { t with lastBoundary := none, lastSpeed := none, speedStep := false }

theorem dropShadeWindow_eq (n : Node) : dropShadeWindow n = { n with shade := (dropShadeWindow n).shade } := by
  unfold dropShadeWindow
  split <;> rfl

theorem dropShadeWindow_window (n : Node) : (dropShadeWindow n).shade.window = none := by
  unfold dropShadeWindow
  split
  · rfl
  · next h => simpa using h

theorem loopToOpen_eq (n : Node) : loopToOpen n = { n with loop := (loopToOpen n).loop } := by
  unfold loopToOpen
  split <;> rfl

theorem loopToOpen_state (n : Node) : (loopToOpen n).loop.state = .opened := by
  unfold loopToOpen
  split
  · next h => exact h
  · rfl

/-- R6, R91, R119: a move of the tracker to IDLE, SEARCH or LOST. -/
theorem trackerTo_forgets (n : Node) (st : TrackerState) (hne : n.track.tracker ≠ st) (ha : st ≠ .align) (ht : st ≠ .track) :
    trackerTo n st = { n with
      track := { n.track with tracker := st }, travel := forgotten n.travel,
      loop := (trackerTo n st).loop, shade := (trackerTo n st).shade } ∧
    (trackerTo n st).shade.window = none ∧
    (n.track.tracker = .track → (trackerTo n st).loop.state = .opened) ∧
    (n.track.tracker ≠ .track → (trackerTo n st).loop = n.loop) := by
  have hdef : trackerTo n st = dropShadeWindow (travelForget (if n.track.tracker = .track then
      loopToOpen { n with track := { n.track with tracker := st } } else { n with track := { n.track with tracker := st } })) := by
    unfold trackerTo
    dsimp only
    rw [if_neg hne]
    cases st with
    | align => exact absurd rfl ha
    | track => exact absurd rfl ht
    | idle => rfl
    | search => rfl
    | lost => rfl
  rw [hdef]
  refine ⟨?_, dropShadeWindow_window _, fun h => ?_, fun h => ?_⟩
  · rw [dropShadeWindow_eq]
    split
    · rw [loopToOpen_eq]
      rfl
    · rfl
  · rw [dropShadeWindow_eq, if_pos h]
    exact loopToOpen_state _
  · rw [dropShadeWindow_eq, if_neg h]
    rfl

/-- R60: the third miss in a row. -/
theorem countMiss_third (n : Node) (ht : n.track.tracker = .track) (h : n.track.missCount = 2) :
    (countMiss n).track = { n.track with tracker := .lost, lostStart := some n.travel.position, missCount := 0,
                                         predicted := none } ∧
    (countMiss n).loop.state = .opened ∧ (countMiss n).shade.window = none := by
  obtain ⟨heq, hwin, hloop, -⟩ := trackerTo_forgets n .lost (by rw [ht]; decide) (by decide) (by decide)
  have hlost : countMiss n = enterLost n := by
    unfold countMiss
    rw [h, if_neg (by decide)]
  rw [hlost]
  refine ⟨?_, hloop ht, hwin⟩
  unfold enterLost
  dsimp only
  rw [heq]
  rfl

theorem countMiss_early (n : Node) (h : n.track.missCount < 2) :
    countMiss n = { n with track := { n.track with missCount := n.track.missCount + 1 } } :=
  if_pos (by omega)

/-! ### The window ends (R58, R60) -/

/-- The node of a synthesised mark, before the miss is counted: the tracker stays, and the memory of speeds is cleared. -/
theorem synthesise_pending (n : Node) (p : Pos) (r : RepeatRecord) (hg : n.job.given = none) (hr : oldestPending n = some r) :
    (∃ len pos, (synthesise n p).track = { n.track with
      here := some r.number, missed := n.track.missed + 1, predLen := len, predicted := pos }) ∧
    (synthesise n p).travel = forgotten n.travel := by
  have hrep : synthReport n p = some
      (predictFrom { n with track := { n.track with here := some r.number, missed := n.track.missed + 1 } } r.number p,
       { number := r.number, edge := p, time := n.now, real := false, wasTrack := true, missed := [] }) := by
    unfold synthReport
    rw [hr]
    rfl
  have hdef : synthesise n p = matchReport
      (predictFrom { n with track := { n.track with here := some r.number, missed := n.track.missed + 1 } } r.number p)
      { number := r.number, edge := p, time := n.now, real := false, wasTrack := true, missed := [] } := by
    unfold synthesise
    rw [hrep]
  rw [hdef]
  refine ⟨⟨_, _, matchReport_track _ _ hg⟩, ?_⟩
  exact matchReport_travel_synth _ _ hg rfl

theorem synthesise_none (n : Node) (p : Pos) (hr : oldestPending n = none) :
    synthesise n p = { n with track := { n.track with predicted := some (movePos p (n.track.predLen.getD 0)) } } := by
  have hrep : synthReport n p = none := by
    unfold synthReport
    rw [hr]
    rfl
  unfold synthesise
  rw [hrep]

/-- R60: in TRACK a synthesised mark leaves the tracker, its miss count and the position. -/
theorem synthesise_tracker (n : Node) (p : Pos) (hg : n.job.given = none) :
    (synthesise n p).track.tracker = n.track.tracker ∧ (synthesise n p).track.missCount = n.track.missCount ∧
    (synthesise n p).travel.position = n.travel.position := by
  cases hr : oldestPending n with
  | none =>
    rw [synthesise_none n p hr]
    exact ⟨rfl, rfl, rfl⟩
  | some r =>
    obtain ⟨⟨len, pos, ht⟩, htr⟩ := synthesise_pending n p r hg hr
    rw [ht, htr]
    exact ⟨rfl, rfl, rfl⟩

theorem trackerWindowEnd_align (n : Node) (ho : trackerWindowOver n = true) (ha : n.track.tracker = .align) :
    trackerWindowEnd n = settleAfter n (clearSearch (trackerTo n .search)) := by
  have hw : windowMissed n = some (clearSearch (trackerTo n .search)) := by
    unfold windowMissed
    rw [if_pos ho, ha]
  unfold trackerWindowEnd
  rw [hw]

theorem trackerWindowEnd_track (n : Node) (p : Pos) (ho : trackerWindowOver n = true) (ht : n.track.tracker = .track)
    (hp : n.track.predicted = some p) (hg : n.job.given = none) :
    trackerWindowEnd n = settleAfter n (countMiss (holdSettle (synthesise n p))) := by
  have hw : windowMissed n = some (countMiss (holdSettle (synthesise n p))) := by
    unfold windowMissed
    rw [if_pos ho, ht, hp]
    exact congrArg some (if_pos ((synthesise_tracker n p hg).1.trans ht))
  unfold trackerWindowEnd
  rw [hw]

theorem trackerWindowEndsInAMiss : Claims.TrackerWindowEndsInAMiss := by
  intro s p ho hp
  refine ⟨fun ha => after_meaning ?_, fun r ht hr hg hc => after_meaning ?_, fun ht hc hg => after_meaning ?_⟩
  · obtain ⟨heq, hwin, -⟩ := trackerTo_forgets s.node .search (by rw [ha]; decide) (by decide) (by decide)
    rw [meaning, trackerWindowEnd_align s.node ho ha, settleAfter_track, settleAfter_travel, settleAfter_shade]
    have htravel : (clearSearch (trackerTo s.node .search)).travel = forgotten s.node.travel := congrArg Node.travel heq
    rw [htravel]
    refine ⟨?_, rfl, rfl, rfl, hwin⟩
    unfold clearSearch
    rw [heq]
  · obtain ⟨⟨len, pos, htrack⟩, htravel⟩ := synthesise_pending s.node p r hg hr
    rw [meaning, trackerWindowEnd_track s.node p ho ht hp hg, settleAfter_track, settleAfter_travel, countMiss_early _ ?_]
    · dsimp only
      rw [holdSettle_track, holdSettle_travel, htrack, htravel]
      exact ⟨rfl, rfl, ht, rfl, rfl⟩
    · rw [holdSettle_track, htrack]
      exact hc
  · obtain ⟨htr, hmc, hpos⟩ := synthesise_tracker s.node p hg
    have hend := trackerWindowEnd_track s.node p ho ht hp hg
    obtain ⟨htrack, hloop, hwin⟩ := countMiss_third (holdSettle (synthesise s.node p))
      (by rw [holdSettle_track, htr, ht]) (by rw [holdSettle_track, hmc, hc])
    rw [holdSettle_travel, hpos] at htrack
    have htrack' := (congrArg Node.track hend).trans ((settleAfter_track _ _).trans htrack)
    have hhit : missHit .trackerWindowEnd s.node = true := by
      have hocc : (occur .trackerWindowEnd s.node).track.tracker = .lost := by
        show (trackerWindowEnd s.node).track.tracker = .lost
        rw [htrack']
      simp [missHit, ht, hocc]
    rw [meaning, namedCase_pos hhit]
    show (trackerWindowEnd s.node).track.tracker = _ ∧ _
    refine ⟨?_, ?_, ?_, ?_, ?_, ?_, gives_meaning .trackerWindowEnd s⟩
    · rw [htrack']
    · exact congrArg Track.lostStart htrack'
    · exact congrArg Track.missCount htrack'
    · exact congrArg Track.predicted htrack'
    · show (trackerWindowEnd s.node).loop.state = _
      rw [hend, settleAfter_loop, hloop]
    · show (trackerWindowEnd s.node).shade.window = _
      rw [hend, settleAfter_shade, hwin]

/-! ### The LOST hold-off (R61) -/

theorem lostHoldOffEndsInSearch : Claims.LostHoldOffEndsInSearch := by
  intro s p hl hp
  refine ⟨fun h => after_meaning ?_, fun h => gives_of_meaning (c := .lostHoldOffEnd) ?_⟩
  · obtain ⟨heq, -, -, hloop⟩ := trackerTo_forgets s.node .search (by rw [hl]; decide) (by decide) (by decide)
    have hm : meaning .lostHoldOffEnd s.node = holdSettle (clearSearch (trackerTo s.node .search)) := by
      show lostHoldOffEnd s.node = _
      unfold lostHoldOffEnd
      rw [hl, hp]
      exact if_pos h
    have hn : clearSearch (trackerTo s.node .search) = { s.node with
        track := { s.node.track with tracker := .search, alignCount := 0, missCount := 0, predicted := none },
        travel := forgotten s.node.travel, shade := (trackerTo s.node .search).shade } := by
      unfold clearSearch
      rw [heq, hloop (by rw [hl]; decide)]
    rw [hm]
    refine ⟨?_, ?_⟩
    · rw [holdSettle_track, hn]
    · have h0 := holdSettle_eq (clearSearch (trackerTo s.node .search))
      generalize holdSettle (clearSearch (trackerTo s.node .search)) = k at h0 ⊢
      rw [h0, hn]
  · show lostHoldOffEnd s.node = s.node
    unfold lostHoldOffEnd
    rw [hl, hp]
    exact if_neg (Int.not_le.mpr h)

/-- Settles O19: the moves of the tracker by `trackerTo_forgets` and `countMiss`. -/
theorem trackerWindowsAndHoldOffsEnd : Obligations.TrackerWindowsAndHoldOffsEnd :=
  ⟨trackerWindowEndsInAMiss, lostHoldOffEndsInSearch⟩

end Sys2Proof.Proofs
end

/-! PROOFS. The Shade Integrator and the Batch Unit (R118 to R134). -/
section
namespace Sys2Proof.Proofs

open Sys2Proof.Machine Sys2Proof.Laws Sys2Proof.Claims

/-! ### Samples (R118, R122) -/

theorem shadeSample_taken (codes : ShadeCodes) (n : Node) (hr : isRole n .shade = true) (hj : isJoined n = true)
    (hd : 0 < n.shade.samplesDue) :
    shadeSample codes n = { n with shade := { n.shade with
      samplesDue := n.shade.samplesDue - 1,
      channels := if n.shade.window.isSome then n.shade.channels.zipWith addCode (codeList codes) else n.shade.channels,
      run := n.shade.run.map fun r =>
        if inTileHalf r (samplePosition n) then { r with tiles := r.tiles.zipWith addCode (codeList codes) } else r } } :=
  if_pos ⟨hr, hj, hd⟩

/-- The last sample due is that of the last multiple of ten ticks. -/
theorem samplePosition_last (n : Node) (h : n.shade.samplesDue = 1) :
    samplePosition n = BitVec.ofNat 32 (n.travel.position.toNat / 10 * 10) := by
  unfold samplePosition
  rw [h]
  rfl

theorem inTileHalf_iff (r : CalRun) (p : Pos) : inTileHalf r p = true ↔
    ((2 * r.length : Nat) : Int) ≤ posDiff p r.start ∧ posDiff p r.start < ((4 * r.length : Nat) : Int) := by
  unfold inTileHalf
  rw [Bool.and_eq_true, decide_eq_true_eq, decide_eq_true_eq]

theorem shadeSampleEntersTheChannels : Claims.ShadeSampleEntersTheChannels := by
  intro codes s
  refine ⟨fun hr hj hd hrun => after_meaning ?_, fun r a b c d e f hr hj hd hrun ht => after_meaning ?_,
    fun h => gives_of_meaning (c := .shadeSample codes) ?_, fun ch x => rfl⟩
  · rw [meaning, shadeSample_taken codes s.node hr hj hd, hrun]
    refine ⟨rfl, fun hw => ?_, fun a b c d e f hw hc => ?_, ?_⟩
    · dsimp only
      rw [if_neg (by rw [hw]; decide)]
    · dsimp only
      rw [if_pos hw, hc]
      rfl
    · dsimp only [Option.map_none]
      rw [← hrun]
  · rw [meaning, shadeSample_taken codes s.node hr hj (by rw [hd]; decide), hrun]
    refine ⟨by dsimp only; rw [hd], ?_⟩
    dsimp only [Option.map_some]
    rw [samplePosition_last s.node hd]
    simp only [inTileHalf_iff, ht]
    rfl
  · refine if_neg ?_
    rintro ⟨h1, h2, h3⟩
    rcases h with h | h | h
    · rw [h] at h1; cases h1
    · rw [h] at h2; cases h2
    · rw [h] at h3; cases h3

/-! ### The end of a calibration run (R122, R123) -/

theorem endCalibration_saturated (n : Node) (r : CalRun) (h : r.tiles.any (·.saturated) = true) :
    endCalibration n r = { n with shade := { n.shade with
      run := none, awaitFirst := true, due := 0, fault := true,
      head := if n.shade.offsetsGood then .measuring else .uncalibrated } } := if_pos h

theorem endCalibration_good (n : Node) (r : CalRun) (h : r.tiles.any (·.saturated) = false) :
    endCalibration n r = { useFree n 6 with shade := { n.shade with
      run := none, awaitFirst := true, due := 0, fault := false, head := .measuring, offsetsGood := true,
      offsets := r.tiles.mapIdx (tileOffset n) } } := if_neg (by rw [h]; decide)

theorem endCalibration_run (n : Node) (r : CalRun) :
    (endCalibration n r).shade.run = none ∧ (endCalibration n r).shade.due = 0 ∧
    endCalibration n r = { n with shade := (endCalibration n r).shade, freeIndex := (endCalibration n r).freeIndex } := by
  unfold endCalibration
  split <;> exact ⟨rfl, rfl, rfl⟩

theorem calibrationEndSetsTheOffsets : Claims.CalibrationEndSetsTheOffsets := by
  intro s r hr
  refine ⟨fun h => gives_of_meaning (c := .calibrationEnd) ?_, fun h => after_meaning ?_⟩
  · show calibrationEnd s.node = s.node
    unfold calibrationEnd
    rw [hr]
    exact if_neg (Int.not_le.mpr h)
  · have hm : meaning .calibrationEnd s.node = holdSettle (endCalibration s.node r) := by
      show calibrationEnd s.node = _
      unfold calibrationEnd
      rw [hr]
      exact if_pos h
    obtain ⟨hrun, hdue, hframe⟩ := endCalibration_run s.node r
    have hshade : (meaning .calibrationEnd s.node).shade = (endCalibration s.node r).shade := by
      rw [hm, holdSettle_shade]
    have hfault : headFault (meaning .calibrationEnd s.node) = headFault (endCalibration s.node r) := by
      unfold headFault
      rw [hshade]
    rw [hfault, hshade, hrun, hdue]
    refine ⟨rfl, rfl, fun hs => ?_, fun hs => ?_, ?_⟩
    · rw [endCalibration_saturated s.node r hs]
      exact ⟨rfl, rfl, by simp [headFault], rfl⟩
    · rw [endCalibration_good s.node r hs]
      refine ⟨rfl, rfl, List.length_mapIdx, fun i ch hi hc => ?_⟩
      show (r.tiles.mapIdx (tileOffset s.node))[i]? = _
      rw [List.getElem?_mapIdx, hi]
      exact congrArg some (if_neg (Nat.pos_iff_ne_zero.mp hc))
    · rw [hm]
      have h0 := holdSettle_eq (endCalibration s.node r)
      generalize holdSettle (endCalibration s.node r) = k at h0 ⊢
      rw [h0, hframe]

/-- Settles O20: a sample by the channels and the tiles it enters, the end of a run by its tiles. -/
theorem shadeSamplesAndCalibration : Obligations.ShadeSamplesAndCalibration :=
  ⟨shadeSampleEntersTheChannels, calibrationEndSetsTheOffsets⟩

/-! ### Forming and drift (R130, R131) -/

/-- R21: an offer of a joined node with room in its queue. -/
theorem enqueue_joined (n : Node) (t : Telegram) (r : Bool) (b : OfferBy) (hj : isJoined n = true) (hd : downQueued n = false)
    (hl : n.link.queue.length < 16) :
    enqueue n t r b =
      ({ n with link := { n.link with queue := n.link.queue ++ [{ telegram := t, restate := r, offerBy := b }] } }, .placed) := by
  have hst : n.st = .joined := by simpa [isJoined] using hj
  have hm : mayOffer n t = true := by
    unfold mayOffer
    rw [hst]
    show (!downQueued n) = true
    rw [hd]
    rfl
  exact enqueue_placed n t r b hm hl

theorem offerAgain_joined (n : Node) (t : Telegram) (r : Bool) (b : OfferBy) (o : Reoffer) (hj : isJoined n = true)
    (hd : downQueued n = false) (hl : n.link.queue.length < 16) :
    offerAgain n t r b o =
      { n with link := { n.link with queue := n.link.queue ++ [{ telegram := t, restate := r, offerBy := b }] } } := by
  unfold offerAgain
  rw [enqueue_joined n t r b hj hd hl]

/-- R130: the node of a batch that becomes FIXED, before its offer. -/
def fixedNode (n : Node) (b : OwnBatch) (pat : Pattern) : Node :=
  { n with batch := { n.batch with own := some { b with
      phase := .fixed, reference := divTriple b.sums 16, tolerance := pat.tolerance } } }

theorem fixOwn_pattern (n : Node) (b : OwnBatch) (pat : Pattern) (hp : curPattern n = some pat) :
    fixOwn n b = offerFixed (fixedNode n b pat) { code := b.code, first := b.first, reason := b.reason }
      (divTriple b.sums 16) := by
  unfold fixOwn
  dsimp only
  rw [hp]
  rfl

theorem formMean_forming (n : Node) (b : OwnBatch) (mean : Triple) (ho : n.batch.own = some b) (hp : b.phase = .forming) :
    formMean n mean =
      if b.count + 1 < 16 then
        { n with batch := { n.batch with own := some { b with sums := addTriple b.sums mean, count := b.count + 1 } } }
      else fixOwn n { b with sums := addTriple b.sums mean, count := b.count + 1 } := by
  unfold formMean
  rw [ho]
  exact if_pos hp

theorem sixteenRepeatsFixTheBatch : Claims.SixteenRepeatsFixTheBatch := by
  intro n b mean pat ho hp
  refine ⟨fun hc => ?_, fun hc hpat hj hd hl => ?_⟩
  · rw [formMean_forming n b mean ho hp, if_pos (by omega)]
  · rw [formMean_forming n b mean ho hp, if_neg (by omega), hc, fixOwn_pattern n _ pat hpat]
    unfold offerFixed
    rw [offerAgain_joined (fixedNode n _ pat) _ _ _ _ hj hd hl]
    exact ⟨rfl, rfl⟩

theorem formOrTest_fixed (n : Node) (b : OwnBatch) (g : Graded) (mean : Triple) (ho : n.batch.own = some b)
    (hp : b.phase = .fixed) (hm : g.mean = some mean) (hi : n.batch.inOffer = 0) :
    formOrTest n g =
      if (cfg n).driftK ≤ (driftStep (cfg n).driftK n.batch b g.number mean).driftRun then
        ({ n with batch := driftStep (cfg n).driftK n.batch b g.number mean },
         (driftStep (cfg n).driftK n.batch b g.number mean).driftFirst)
      else ({ n with batch := driftStep (cfg n).driftK n.batch b g.number mean }, none) := by
  unfold formOrTest
  rw [hm, ho]
  dsimp only
  rw [if_neg (by rw [hi]; decide), if_neg (by rw [hp]; decide)]

theorem driftRunsAreCounted : Claims.DriftRunsAreCounted := by
  intro n b g mean ho hp hm hi hk
  refine ⟨fun hd => ?_, fun hd => ?_⟩
  · rw [formOrTest_fixed n b g mean ho hp hm hi, driftStep_in _ _ _ _ _ hd]
    exact if_neg (Nat.not_le.mpr hk)
  · rw [formOrTest_fixed n b g mean ho hp hm hi, driftStep_out _ _ _ _ _ hd]
    dsimp only
    by_cases hr : (cfg n).driftK ≤ n.batch.driftRun + 1
    · rw [if_pos hr, if_pos hr]
    · rw [if_neg hr, if_neg hr]

theorem lostFixedIsOfferedAgain : Claims.LostFixedIsOfferedAgain := by
  intro n p ref after restate
  refine ⟨fun ha hj hd hl => ?_, fun ha => if_neg ha⟩
  have hoffer : offerDropped n { telegram := .batchFixed p ref, restate := restate, offerBy := .fixed after } =
      offerFixed n p ref := if_pos ha
  rw [hoffer]
  unfold offerFixed
  rw [offerAgain_joined n _ _ _ _ hj hd hl, ha]

/-- Settles O22: the sixteenth triple by `formMean`, the run by `driftStep`, the lost FIXED by its newest opening. -/
theorem formingAndDrift : Obligations.FormingAndDrift :=
  ⟨sixteenRepeatsFixTheBatch, driftRunsAreCounted, lostFixedIsOfferedAgain⟩

/-! ### Openings and the step watch (R128, R134) -/

/-- R128: the node of an opening that is made, before its offer. -/
def openedNode (n : Node) (first code : Nat) : Node :=
  { n with batch := { n.batch with
      nextCode := some (succIn batchRange code), lastDecided := some first, driftRun := 0, driftFirst := none, watch := none,
      inOffer := n.batch.inOffer + 1, lastOpened := some code } }

theorem openBatch_made (n : Node) (first code : Nat) (reason : BatchReason) (hc : n.batch.nextCode = some code)
    (hnew : ∀ l, n.batch.lastDecided = some l → newer repeatRange first l = true) :
    openBatch n first reason = offerOpened (openedNode n first code) { code := code, first := first, reason := reason } := by
  unfold openBatch
  rw [hc]
  refine if_neg ?_
  cases hl : n.batch.lastDecided with
  | none => simp
  | some l => simp [hnew l hl]

theorem openBatch_old (n : Node) (first l : Nat) (reason : BatchReason) (hl : n.batch.lastDecided = some l)
    (hold : newer repeatRange first l = false) : openBatch n first reason = n := by
  unfold openBatch
  split
  · rfl
  · refine if_pos ?_
    rw [hl]
    show (!newer repeatRange first l) = true
    rw [hold]
    rfl

theorem openingsTakeTheNextCode : Claims.OpeningsTakeTheNextCode := by
  intro n first code reason hc
  refine ⟨fun l hl hold => openBatch_old n first l reason hl hold, fun hnew hj hd hl => ?_⟩
  rw [openBatch_made n first code reason hc hnew]
  unfold offerOpened
  rw [offerAgain_joined (openedNode n first code) _ _ _ _ hj hd hl]
  rfl

theorem stepWatchDecidesAtFour : Claims.StepWatchDecidesAtFour := by
  intro n w g pat f code hw hp
  have hlen : (w.held ++ [g]).length = w.held.length + 1 := by simp
  refine ⟨fun h => ?_, fun h hdiff hf hc hnew => ?_⟩
  · unfold holdByWatch
    dsimp only
    rw [if_pos (by rw [hlen]; omega)]
  · have hopen : holdByWatch n w g =
        openBatch { n with batch := { n.batch with watch := none } } f .calibrationStep := by
      have htol : stepTolerance n = pat.tolerance := by
        unfold stepTolerance
        rw [hp]
      unfold holdByWatch
      dsimp only
      rw [if_neg (by rw [hlen]; omega)]
      unfold decideWatch
      dsimp only
      rw [htol, if_pos hdiff, hf, hp]
      rfl
    rw [hopen, openBatch_made { n with batch := { n.batch with watch := none } } f code .calibrationStep hc hnew]
    unfold offerOpened
    rw [offerAgain_batch]
    exact ⟨rfl, rfl, rfl⟩

/-- Settles O23: an opening by `openBatch`, the fourth repeat of the watch by `decideWatch`. -/
theorem openingsAndTheStepWatch : Obligations.OpeningsAndTheStepWatch :=
  ⟨openingsTakeTheNextCode, stepWatchDecidesAtFour⟩

end Sys2Proof.Proofs
end

/-! PROOFS. Frames of another station that complete: what the node hears of each, and the requests of the operator (R20, R34,
R142, R148, R195). -/
section
namespace Sys2Proof.Proofs

open Sys2Proof.Machine Sys2Proof.Laws Sys2Proof.Claims

/-! ### What an offer leaves of the link -/

/-- The Link Controller without what an offer can write: the queue, its counters, LINK_FAULT and the refused offers. -/
def linkRest (l : Link) : Link :=
  { l with queue := [], discarded := 0, dropped := 0, linkFault := false, ownRun := 0, refusedOffers := [] }

theorem enqueue_linkRest (n : Node) (t : Telegram) (r : Bool) (b : OfferBy) :
    linkRest (enqueue n t r b).1.link = linkRest n.link := by
  unfold enqueue
  dsimp only
  split
  · rfl
  · split
    · rfl
    · split
      · rfl
      · split <;> rfl

theorem offerAgain_linkRest (n : Node) (t : Telegram) (r : Bool) (b : OfferBy) (o : Reoffer) :
    linkRest (offerAgain n t r b o).link = linkRest n.link := by
  have h := enqueue_linkRest n t r b
  unfold offerAgain
  split
  · next m hm => rw [hm] at h; exact h
  · next m _ _ hm => rw [hm] at h; exact h

theorem holdOffer_linkRest (n : Node) : linkRest (holdOffer n).link = linkRest n.link := by
  unfold holdOffer
  split
  · rfl
  · next w _ =>
    have h := enqueue_linkRest n (statementTelegram w) false .hold
    split
    · rfl
    · split
      · next m hm => rw [hm] at h; exact h
      · next m hm => rw [hm] at h; exact h
      · next m _ _ _ hm => rw [hm] at h; exact h

theorem holdOfferWanted_linkRest (n : Node) : linkRest (holdOfferWanted n).link = linkRest n.link := by
  unfold holdOfferWanted
  rw [holdAbsorb_link, holdOffer_linkRest]

theorem holdSettle_linkRest (n : Node) : linkRest (holdSettle n).link = linkRest n.link := by
  unfold holdSettle
  split
  · rfl
  · split
    · rfl
    · dsimp only
      split
      · rw [holdAbsorb_link]
      · rw [holdOfferWanted_linkRest, holdAbsorb_link]

/-- The fields of the link that no offer writes, read off equal rests. -/
theorem linkRest_fields {a b : Link} (h : linkRest a = linkRest b) :
    a.w = b.w ∧ a.completed = b.completed ∧ a.voidRun = b.voidRun ∧ a.sending = b.sending ∧ a.attempts = b.attempts ∧
    a.resume = b.resume ∧ a.newestRepeat = b.newestRepeat ∧ a.newestRoll = b.newestRoll ∧ a.newestBatch = b.newestBatch ∧
    a.newestJob = b.newestJob := by
  have h1 := congrArg Link.w h
  have h2 := congrArg Link.completed h
  have h3 := congrArg Link.voidRun h
  have h4 := congrArg Link.sending h
  have h5 := congrArg Link.attempts h
  have h6 := congrArg Link.resume h
  have h7 := congrArg Link.newestRepeat h
  have h8 := congrArg Link.newestRoll h
  have h9 := congrArg Link.newestBatch h
  have h10 := congrArg Link.newestJob h
  exact ⟨h1, h2, h3, h4, h5, h6, h7, h8, h9, h10⟩

/-! ### The frame that is heard -/

/-- The link of a node that hears the end of a good frame which it did not void. -/
def heardLink (l : Link) (o : Origin) : Link :=
  { l with w := o.sender, slot := none, heardEnd := true, silentMs := 0, completed := l.completed + 1, voidRun := 0 }

/-- The node that hands the telegram of a heard frame over to its blocks. -/
def heardNode (n : Node) (o : Origin) (t : Telegram) : Node :=
  { n with peers := (peerFrame n o.sender t).peers, link := raiseNumbers (heardLink n.link o) t }

theorem peerFrame_eq (n : Node) (k : Nat) (t : Telegram) : peerFrame n k t = { n with peers := (peerFrame n k t).peers } := by
  unfold peerFrame setPeer
  split
  · rfl
  · split
    · rfl
    · split <;> rfl

/-- The peers after a frame depend on the peers before it and on the image. -/
theorem peerFrame_congr (n m : Node) (k : Nat) (t : Telegram) (hp : m.peers = n.peers) (hi : m.image = n.image) :
    (peerFrame m k t).peers = (peerFrame n k t).peers := by
  have hc : cfg m = cfg n := by simp [cfg, hi]
  have hs : ∀ p, (setPeer m k p).peers = (setPeer n k p).peers := by
    intro p
    unfold setPeer
    split
    · simp [hp]
    · exact hp
  have ha : peerAt m k = peerAt n k := by simp [peerAt, hp]
  unfold peerFrame
  rw [hc, ha]
  split
  · exact hp
  · split
    · exact hp
    · exact hs _

/-- A frame of another station, applied by its blocks to the heard node `heardNode`, settles with that result. -/
theorem completeFrame_heard (n : Node) (o : Origin) (t : Telegram) (ha : appliesFrames n = true) (hs : n.link.sending = false)
    (hd : n.link.drove = false) (ho : o.sender ≠ (cfg n).station) (a : Node)
    (happ : handOver (heardNode n o t) o false false t = a) (hi : a.image = n.image) (hv : a.link.voidRun = 0) :
    completeFrame o t n = holdSettle (clearFrame a) := by
  have hw : tracksW n = true := by
    unfold appliesFrames at ha
    rw [Bool.or_eq_true, decide_eq_true_eq, decide_eq_true_eq] at ha
    unfold tracksW
    rcases ha with h | h <;> rw [h]
  have hnl : n.st ≠ .listening := by
    intro h
    simp [appliesFrames, h] at ha
  have hnm : n.st ≠ .muted := by
    intro h
    simp [appliesFrames, h] at ha
  have hown : isOwnFrame n o t = false := by simp [isOwnFrame, hs]
  have hm : countVoidRun (countCompleted (hearEnd { n with link := { n.link with w := o.sender } })) =
      { n with link := heardLink n.link o } := by
    have h1 : ∀ m : Node, appliesFrames m = true → countCompleted m =
        { m with link := { m.link with completed := m.link.completed + 1 } } := fun m hm => if_pos hm
    have h2 : ∀ m : Node, appliesFrames m = true → m.link.drove = false → countVoidRun m =
        { m with link := { m.link with voidRun := 0 } } := by
      intro m hm hdr
      unfold countVoidRun
      rw [if_pos hm, hdr]
      rfl
    rw [h1 (hearEnd { n with link := { n.link with w := o.sender } }) ha]
    refine (h2 _ ?_ ?_).trans rfl
    · exact ha
    · exact hd
  have happlied : applyFrame { n with link := heardLink n.link o } o false false t = a := by
    rw [← happ]
    have he := peerFrame_eq { n with link := heardLink n.link o } o.sender t
    rw [peerFrame_congr n { n with link := heardLink n.link o } o.sender t rfl rfl] at he
    unfold applyFrame
    rw [he]
    rfl
  have hcfg : cfg a = cfg n := by simp [cfg, hi]
  have hother : completeOther (hearEnd { n with link := { n.link with w := o.sender } }) o t = a := by
    unfold completeOther
    dsimp only
    rw [hm]
    have hap : appliesFrames { n with link := heardLink n.link o } = true := ha
    rw [if_pos hap, happlied]
    have hclash : clashSecond a o.sender = a := by
      unfold clashSecond
      rw [hcfg, if_neg (fun h => ho h.1)]
    have hvoid : muteVoiding a = a := by
      unfold muteVoiding
      rw [hv, if_neg (fun h => absurd h.2 (by decide))]
    rw [hclash, hvoid]
    unfold goodFrame
    rw [if_neg (fun h => hnm h.1)]
  unfold completeFrame
  rw [if_pos hw, hown]
  dsimp only
  rw [if_neg hnl, hother]

/-! ### The entry of the sender -/

theorem peerFrame_same (n : Node) (k : Nat) (t : Telegram) (hk : 1 ≤ k) (hl : k ≤ n.peers.length) (hne : k ≠ (cfg n).station)
    (ht : ∀ p, t ≠ .join p) : peerAt (peerFrame n k t) k = raiseHeard (hearPeer (peerAt n k)) (carriedRepeat t) := by
  unfold peerFrame
  rw [if_neg hne]
  split
  · next p => exact absurd rfl (ht p)
  · exact peerAt_setPeer_same n k _ hk hl

theorem peerFrame_other (n : Node) (k m : Nat) (t : Telegram) (hk : 1 ≤ k) (hm : 1 ≤ m) (hne : m ≠ k) :
    peerAt (peerFrame n k t) m = peerAt n m := by
  unfold peerFrame
  split
  · rfl
  · split
    · rfl
    · exact peerAt_setPeer_other n k m _ hk hm hne

/-- Hearing a peer leaves its role and its learnt mark, and makes it PRESENT unless it is DOWN or BENCHED. -/
theorem raiseHeard_hearPeer (p : Peer) (x : Option Nat) :
    (raiseHeard (hearPeer p) x).silence = 0 ∧ (raiseHeard (hearPeer p) x).role = p.role ∧
    (raiseHeard (hearPeer p) x).learnt = p.learnt ∧
    (raiseHeard (hearPeer p) x).state = (match p.state with
      | .down => .down
      | .benched => .benched
      | _ => .present) := by
  have hr : ∀ q : Peer, (raiseHeard q x).silence = q.silence ∧ (raiseHeard q x).role = q.role ∧
      (raiseHeard q x).learnt = q.learnt ∧ (raiseHeard q x).state = q.state := by
    intro q
    unfold raiseHeard
    split
    · exact ⟨rfl, rfl, rfl, rfl⟩
    · split <;> exact ⟨rfl, rfl, rfl, rfl⟩
  obtain ⟨h1, h2, h3, h4⟩ := hr (hearPeer p)
  rw [h1, h2, h3, h4]
  unfold hearPeer
  cases p.state <;> simp

theorem raiseHeard_lastRepeat (p : Peer) :
    (raiseHeard (hearPeer p) none).lastRepeat = p.lastRepeat ∧
    ∀ x, (raiseHeard (hearPeer p) (some x)).lastRepeat =
      if x ≠ 0 ∧ (p.lastRepeat = 0 ∨ newer repeatRange x p.lastRepeat = true) then x else p.lastRepeat := by
  have hl : (hearPeer p).lastRepeat = p.lastRepeat := by
    unfold hearPeer
    split <;> rfl
  refine ⟨hl, fun x => ?_⟩
  unfold raiseHeard
  dsimp only
  rw [hl]
  by_cases h : x ≠ 0 ∧ (p.lastRepeat = 0 ∨ newer repeatRange x p.lastRepeat = true)
  · rw [if_pos h]
    exact congrArg Peer.lastRepeat (if_pos h)
  · rw [if_neg h]
    exact (congrArg Peer.lastRepeat (if_neg h)).trans hl

/-- R40, R195: what the end of a heard frame leaves, whatever its blocks and the Hold Unit offer behind it. -/
theorem heard_of (o : Origin) (s : State) (t : Telegram) (hh : HearsAnother o s) (ht : ∀ p, t ≠ .join p) (a : Node)
    (hst : a.st = s.node.st) (hp : a.peers = (peerFrame s.node o.sender t).peers)
    (hl : a.link.w = o.sender ∧ a.link.completed = s.node.link.completed + 1 ∧ a.link.voidRun = 0) :
    Heard o s (holdSettle (clearFrame a)) ∧
    peerAt (holdSettle (clearFrame a)) o.sender = raiseHeard (hearPeer (peerAt s.node o.sender)) (carriedRepeat t) := by
  obtain ⟨-, -, -, hk, hne, hlen⟩ := hh
  obtain ⟨h1, h31⟩ : 1 ≤ o.sender ∧ o.sender ≤ 31 := by simpa [wfStation] using hk
  obtain ⟨hw, hc, hv⟩ := hl
  obtain ⟨rw_, rc, rv, -⟩ := linkRest_fields (holdSettle_linkRest (clearFrame a))
  have hpeers : (holdSettle (clearFrame a)).peers = (peerFrame s.node o.sender t).peers := (holdSettle_peers _).trans hp
  have hat : ∀ k, peerAt (holdSettle (clearFrame a)) k = peerAt (peerFrame s.node o.sender t) k := fun k => by
    unfold peerAt
    rw [hpeers]
  have hsame := peerFrame_same s.node o.sender t h1 (by rw [hlen]; exact h31) hne ht
  obtain ⟨p1, p2, -, p4⟩ := raiseHeard_hearPeer (peerAt s.node o.sender) (carriedRepeat t)
  refine ⟨⟨rw_.trans hw, rc.trans hc, rv.trans hv, (holdSettle_st _).trans hst, ?_, ?_, ?_, fun k hk1 hkne => ?_⟩, ?_⟩
  · rw [hat, hsame, p1]
  · rw [hat, hsame, p2]
  · rw [hat, hsame]
    exact p4
  · rw [hat, peerFrame_other s.node o.sender k t h1 hk1 hkne]
  · rw [hat, hsame]

theorem raiseNumbers_rest (l : Link) (t : Telegram) :
    (raiseNumbers l t).w = l.w ∧ (raiseNumbers l t).completed = l.completed ∧ (raiseNumbers l t).voidRun = l.voidRun ∧
    (raiseNumbers l t).resume = l.resume := by
  cases t <;> exact ⟨rfl, rfl, rfl, rfl⟩

/-- A heard frame whose blocks leave the node state, the peers and the link but for their offers. -/
theorem hears (o : Origin) (s : State) (t : Telegram) (hh : HearsAnother o s) (ht : ∀ p, t ≠ .join p) (a : Node)
    (happ : handOver (heardNode s.node o t) o false false t = a) (hi : a.image = s.node.image) (hst : a.st = s.node.st)
    (hp : a.peers = (peerFrame s.node o.sender t).peers)
    (hl : linkRest a.link = linkRest (raiseNumbers (heardLink s.node.link o) t)) :
    completeFrame o t s.node = holdSettle (clearFrame a) ∧ Heard o s (holdSettle (clearFrame a)) ∧
    peerAt (holdSettle (clearFrame a)) o.sender = raiseHeard (hearPeer (peerAt s.node o.sender)) (carriedRepeat t) := by
  obtain ⟨hw, hc, hv, -⟩ := linkRest_fields hl
  obtain ⟨n1, n2, n3, -⟩ := raiseNumbers_rest (heardLink s.node.link o) t
  rw [n1] at hw
  rw [n2] at hc
  rw [n3] at hv
  have hheard := heard_of o s t hh ht a hst hp ⟨hw, hc, hv⟩
  obtain ⟨ha, hs, hd, -, hne, -⟩ := hh
  exact ⟨completeFrame_heard s.node o t ha hs hd hne a happ hi hv, hheard⟩

/-! ### PRESENT, an undefined code and DOWN (R34, R195) -/

/-- The frame of a settled node that changes its link and its peers alone. -/
theorem holdSettle_clearFrame_eq (n : Node) (p : List Peer) (l : Link) :
    holdSettle (clearFrame { n with peers := p, link := l }) = { n with
      link := (holdSettle (clearFrame { n with peers := p, link := l })).link,
      peers := (holdSettle (clearFrame { n with peers := p, link := l })).peers,
      hold := (holdSettle (clearFrame { n with peers := p, link := l })).hold,
      port := (holdSettle (clearFrame { n with peers := p, link := l })).port } := by
  have h0 := holdSettle_eq (clearFrame { n with peers := p, link := l })
  generalize holdSettle (clearFrame { n with peers := p, link := l }) = k at h0 ⊢
  rw [h0]
  rfl

theorem heardFramesMarkTheSender : Claims.HeardFramesMarkTheSender := by
  intro o s p hh
  refine ⟨after_meaning ?_, after_meaning ?_⟩
  · obtain ⟨hm, hheard, hpeer⟩ := hears o s .present hh (fun _ h => by cases h) (heardNode s.node o .present) rfl rfl rfl rfl rfl
    rw [meaning, hm]
    refine ⟨hheard, ?_, holdSettle_clearFrame_eq s.node _ _⟩
    rw [hpeer]
    exact (raiseHeard_lastRepeat _).1
  · obtain ⟨hm, hheard, hpeer⟩ := hears o s (.undefined p) hh (fun _ h => by cases h) (heardNode s.node o (.undefined p))
      rfl rfl rfl rfl rfl
    obtain ⟨hno, hsome⟩ := raiseHeard_lastRepeat (peerAt s.node o.sender)
    rw [meaning, hm]
    refine ⟨hheard, fun hk => ?_, fun h7 h8 => ?_, holdSettle_clearFrame_eq s.node _ _⟩
    · unfold HeardRepeat
      have hc : carriedRepeat (.undefined p) = some p.number := if_pos hk
      rw [hpeer, hc, hsome]
      rfl
    · have hc : carriedRepeat (.undefined p) = none := if_neg (by rintro (h | h); exact h7 h; exact h8 h)
      rw [hpeer, hc, hno]
      rfl

theorem peerFrame_length (n : Node) (k : Nat) (t : Telegram) : (peerFrame n k t).peers.length = n.peers.length := by
  have hs : ∀ p, (setPeer n k p).peers.length = n.peers.length := by
    intro p
    unfold setPeer
    split
    · exact List.length_set
    · rfl
  unfold peerFrame
  split
  · rfl
  · split
    · rfl
    · exact hs _

theorem downMarksTheEntry : Claims.DownMarksTheEntry := by
  intro o s cause hh
  have hhears := hh
  obtain ⟨ha, hs, hd, hk, hne, hlen⟩ := hh
  obtain ⟨h1, h31⟩ : 1 ≤ o.sender ∧ o.sender ≤ 31 := by simpa [wfStation] using hk
  have happ : handOver (heardNode s.node o (.down cause)) o false false (.down cause) =
      setPeer (heardNode s.node o (.down cause)) o.sender
        { peerAt (heardNode s.node o (.down cause)) o.sender with state := .down, cause := some cause } := if_neg hne
  have hset : ∀ p, setPeer (heardNode s.node o (.down cause)) o.sender p =
      { s.node with peers := (heardNode s.node o (.down cause)).peers.set (o.sender - 1) p,
                    link := heardLink s.node.link o } := fun p => if_pos h1
  have hlen' : (heardNode s.node o (.down cause)).peers.length = 31 := (peerFrame_length _ _ _).trans hlen
  have hheard : peerAt (heardNode s.node o (.down cause)) o.sender = raiseHeard (hearPeer (peerAt s.node o.sender)) none :=
    peerFrame_same s.node o.sender (.down cause) h1 (by rw [hlen]; exact h31) hne (fun _ h => by cases h)
  have hsame := peerAt_setPeer_same (heardNode s.node o (.down cause)) o.sender
    { peerAt (heardNode s.node o (.down cause)) o.sender with state := .down, cause := some cause } h1
    (by rw [hlen']; exact h31)
  have hother := fun k (hk1 : 1 ≤ k) (hkne : k ≠ o.sender) => peerAt_setPeer_other (heardNode s.node o (.down cause))
    o.sender k { peerAt (heardNode s.node o (.down cause)) o.sender with state := .down, cause := some cause } h1 hk1 hkne
  rw [hset] at happ hsame hother
  have hm : meaning (.down o cause) s.node = _ :=
    completeFrame_heard s.node o (.down cause) ha hs hd hne _ happ rfl rfl
  have hat : ∀ k, peerAt (meaning (.down o cause) s.node) k = peerAt { s.node with
      peers := (heardNode s.node o (.down cause)).peers.set (o.sender - 1)
        { peerAt (heardNode s.node o (.down cause)) o.sender with state := .down, cause := some cause },
      link := heardLink s.node.link o } k := fun k => by
    rw [hm]
    unfold peerAt
    rw [holdSettle_peers]
    rfl
  refine after_meaning ⟨?_, ?_, ?_, fun k hk1 hkne => ?_, ?_, ?_⟩
  · rw [hat, hsame]
  · rw [hat, hsame]
  · rw [hat, hsame]
    show (peerAt (heardNode s.node o (.down cause)) o.sender).silence = 0
    rw [hheard]
    exact (raiseHeard_hearPeer _ _).1
  · rw [hat, hother k hk1 hkne]
    exact peerFrame_other s.node o.sender k (.down cause) h1 hk1 hkne
  · rw [hm]
    exact (linkRest_fields (holdSettle_linkRest _)).2.1
  · rw [hm]
    exact holdSettle_clearFrame_eq s.node _ _

/-- Settles O37: a heard frame by `hears`, DOWN by the entry it sets. -/
theorem heardFramesAndDown : Obligations.HeardFramesAndDown := ⟨heardFramesMarkTheSender, downMarksTheEntry⟩

end Sys2Proof.Proofs
end

/-! PROOFS. The requests of the operator (R142, R148). -/
section
namespace Sys2Proof.Proofs

open Sys2Proof.Machine Sys2Proof.Laws Sys2Proof.Claims

/-! ### The port under the Hold Unit -/

/-- The port `q` is `p` with attention causes added. -/
def Attends (p q : Port) : Prop := ∃ c : BitVec 4, q = { p with attention := p.attention ||| c }

theorem Attends.self (p : Port) : Attends p p := ⟨0, by simp⟩

theorem Attends.trans {p q r : Port} (h1 : Attends p q) (h2 : Attends q r) : Attends p r := by
  obtain ⟨c, rfl⟩ := h1
  obtain ⟨d, rfl⟩ := h2
  exact ⟨c ||| d, by simp [BitVec.or_assoc]⟩

theorem or_and_cause (x c : BitVec 4) : (x ||| c) &&& c = c := by
  have hb : ∀ a b : Bool, ((a || b) && b) = b := by decide
  ext i hi
  simp only [BitVec.getElem_and, BitVec.getElem_or]
  exact hb _ _

/-- An added cause stays. -/
theorem Attends.cause {p q : Port} (h : Attends p q) (c : BitVec 4) (hc : p.attention &&& c = c) : q.attention &&& c = c := by
  have hb : ∀ a b c : Bool, (a && c) = c → ((a || b) && c) = c := by decide
  obtain ⟨d, rfl⟩ := h
  ext i hi
  have hi' := congrArg (fun v : BitVec 4 => v[i]) hc
  simp only [BitVec.getElem_and, BitVec.getElem_or] at hi' ⊢
  exact hb _ _ _ hi'

theorem attend_attends (n : Node) (c : BitVec 4) : Attends n.port (attend n c).port := ⟨c, rfl⟩

theorem attend_cause (n : Node) (c : BitVec 4) : (attend n c).port.attention &&& c = c := or_and_cause n.port.attention c

theorem setHoldState_attends (n : Node) (st : HoldState) : Attends n.port (setHoldState n st).port := by
  unfold setHoldState
  split
  · exact .self _
  · exact attend_attends { n with hold := { n.hold with state := st } } attHold

theorem holdAbsorb_attends (n : Node) : Attends n.port (holdAbsorb n).port := by
  have hb : ∀ (m : Node) (f : CauseSet), Attends m.port (beginQuiet m f).port := by
    intro m f
    unfold beginQuiet
    split
    · exact setHoldState_attends _ _
    · exact .self _
  have hg : ∀ (m : Node) (o : OwnHold) (f : CauseSet), Attends m.port (growHold m o f).port := by
    intro m o f
    unfold growHold
    dsimp only
    refine Attends.trans ?_ (setHoldState_attends _ _)
    split <;> exact .self _
  unfold holdAbsorb
  dsimp only
  refine Attends.trans ?_ (hb _ _)
  split
  · exact .self _
  · split
    · exact setHoldState_attends _ _
    · exact hg _ _ _

theorem holdOffer_port (n : Node) : (holdOffer n).port = n.port := by
  unfold holdOffer
  split
  · rfl
  · next w _ =>
    have h := congrArg Node.port (enqueue_eq n (statementTelegram w) false .hold)
    split
    · rfl
    · split
      · next m hm => rw [hm] at h; exact h
      · next m hm => rw [hm] at h; exact h
      · next m _ _ _ hm => rw [hm] at h; exact h

theorem holdOfferWanted_attends (n : Node) : Attends n.port (holdOfferWanted n).port := by
  have h := holdAbsorb_attends (holdOffer n)
  rw [holdOffer_port] at h
  exact h

/-- R140: the Hold Unit adds attention causes to the port, and nothing else. -/
theorem holdSettle_attends (n : Node) : Attends n.port (holdSettle n).port := by
  unfold holdSettle
  split
  · exact .self _
  · split
    · exact .self _
    · dsimp only
      split
      · exact holdAbsorb_attends n
      · exact (holdAbsorb_attends n).trans (holdOfferWanted_attends _)

theorem holdSettle_refusals (n : Node) : (holdSettle n).port.refusals = n.port.refusals := by
  obtain ⟨c, hc⟩ := holdSettle_attends n
  rw [hc]

/-! ### What an offer of the Hold Unit leaves -/

/-- R149: an offer of the wanted statement writes the marks of the offer and the link. -/
theorem holdOffer_eq (n : Node) : holdOffer n = { n with
    hold := { n.hold with inOffer := (holdOffer n).hold.inOffer, waiting := (holdOffer n).hold.waiting },
    link := (holdOffer n).link } := by
  unfold holdOffer
  split
  · rfl
  · next w _ =>
    have h := enqueue_eq n (statementTelegram w) false .hold
    split
    · rfl
    · split
      · next m hm => rw [hm] at h; dsimp only at h; rw [h]
      · next m hm => rw [hm] at h; dsimp only at h; rw [h]; rfl
      · next m _ _ _ hm => rw [hm] at h; dsimp only at h; rw [h]

theorem setHoldState_hold (n : Node) (st : HoldState) : (setHoldState n st).hold = { n.hold with state := st } := by
  unfold setHoldState
  split
  · next h => rw [← h]
  · rfl

/-! ### HOLD_ON (R142) -/

theorem factorInputs_operator (n : Node) : (factorInputs n).getLsbD 9 = n.hold.operator := by
  simp only [factorInputs, BitVec.getLsbD_or, causeBit_getLsbD _ 9 _ (by decide)]
  simp

/-- The mask enables OPERATOR, and the operator factor is active at a holding role. -/
theorem factorSet_operator (n : Node) (hr : holdRole n = true) (hm : (cfg n).factorMask.getLsbD 9 = true)
    (ho : n.hold.operator = true) : (factorSet n).getLsbD 9 = true := by
  unfold factorSet
  rw [if_pos hr, BitVec.getLsbD_and, factorInputs_operator, ho, hm]
  rfl

theorem ne_zero_of_bit {c : CauseSet} {i : Nat} (h : c.getLsbD i = true) : c ≠ 0 := by
  rintro rfl
  simp at h

/-- The operator's hold: HELD from repeat `x` on, for OPERATOR among its causes, and shown at ATTN. -/
def OperatorHeld (x : Nat) (n : Node) : Prop :=
  n.hold.operator = true ∧ n.hold.state = .held ∧ (∃ h, n.hold.own = some h ∧ h.causes.getLsbD 9 = true ∧ h.first = x) ∧
    n.port.attention &&& attHold = attHold

theorem beginQuiet_factor (n : Node) (f : CauseSet) (h : f ≠ 0) : beginQuiet n f = n := by
  unfold beginQuiet
  rw [if_neg (fun hq => h hq.2.1)]

theorem growHold_hold (n : Node) (o : OwnHold) (f : CauseSet) :
    (growHold n o f).hold = { n.hold with
      quiet := 0, target := none, state := .held,
      own := if o.causes ||| f = o.causes then n.hold.own else some { first := o.first, causes := o.causes ||| f },
      wanted := if o.causes ||| f = o.causes then n.hold.wanted else some (.set o.first (o.causes ||| f)) } := by
  unfold growHold
  dsimp only
  rw [setHoldState_hold]
  split <;> rfl

theorem OperatorHeld.absorb {x : Nat} {n : Node} (h : OperatorHeld x n) (hf : factorSet n ≠ 0) : OperatorHeld x (holdAbsorb n) := by
  obtain ⟨hop, hst, ⟨o, hown, hbit, hfirst⟩, hatt⟩ := h
  have hport := (holdAbsorb_attends n).cause attHold hatt
  unfold OperatorHeld
  refine ⟨?_, ?_, ?_, hport⟩
  all_goals
    unfold holdAbsorb
    dsimp only
    rw [beginQuiet_factor _ _ hf, hown]
    dsimp only
    split
  · exact hop
  · rw [growHold_hold]
    exact hop
  · exact hst
  · rw [growHold_hold]
  · exact ⟨o, hown, hbit, hfirst⟩
  · rw [growHold_hold]
    dsimp only
    split
    · exact ⟨o, hown, hbit, hfirst⟩
    · exact ⟨_, rfl, by rw [BitVec.getLsbD_or, hbit]; rfl, hfirst⟩

theorem OperatorHeld.offer {x : Nat} {n : Node} (h : OperatorHeld x n) : OperatorHeld x (holdOffer n) := by
  unfold OperatorHeld at h ⊢
  rw [holdOffer_eq]
  exact h

theorem holdRole_of_image {a b : Node} (h : a.image = b.image) : holdRole a = holdRole b := by
  simp [holdRole, eyeRole, isRole, h]

theorem cfg_of_image {a b : Node} (h : a.image = b.image) : cfg a = cfg b := by simp [cfg, h]

/-- R142, R144: with OPERATOR newly in the factor set and no own hold, the Hold Unit sets one at its reference repeat. -/
theorem holdSettle_operator (n : Node) (hw : holdWorks n = true) (hm : (cfg n).factorMask.getLsbD 9 = true)
    (ho : n.hold.operator = true) (hown : n.hold.own = none) (hst : n.hold.state = .clear)
    (hseen : n.hold.seen.getLsbD 9 = false) : OperatorHeld (holdReference n) (holdSettle n) := by
  have hr : holdRole n = true := by
    unfold holdWorks at hw
    simp only [Bool.and_eq_true] at hw
    exact hw.1.1
  have hbit := factorSet_operator n hr hm ho
  have hent : factorSet n &&& ~~~n.hold.seen ≠ 0 := by
    apply ne_zero_of_bit (i := 9)
    rw [BitVec.getLsbD_and, hbit, BitVec.getLsbD_not, hseen]
    rfl
  have habs : OperatorHeld (holdReference n) (holdAbsorb n) := by
    have hstate : n.hold.state ≠ .held := by rw [hst]; decide
    have hset : holdAbsorb n = { setHold n (factorSet n) with
        hold := { (setHold n (factorSet n)).hold with seen := factorSet n } } := by
      unfold holdAbsorb
      dsimp only
      rw [if_neg hent, hown, beginQuiet_factor _ _ (ne_zero_of_bit hbit)]
    rw [hset]
    have hhold : (setHold n (factorSet n)).hold = { n.hold with
        own := some { first := holdReference n, causes := factorSet n }, quiet := 0, target := none, state := .held,
        wanted := some (.set (holdReference n) (factorSet n)) } := by
      unfold setHold
      rw [setHoldState_hold]
    refine ⟨?_, ?_, ?_, ?_⟩
    · show (setHold n (factorSet n)).hold.operator = true
      rw [hhold]
      exact ho
    · show (setHold n (factorSet n)).hold.state = .held
      rw [hhold]
    · refine ⟨{ first := holdReference n, causes := factorSet n }, ?_, hbit, rfl⟩
      show (setHold n (factorSet n)).hold.own = _
      rw [hhold]
    · show (setHold n (factorSet n)).port.attention &&& attHold = attHold
      unfold setHold setHoldState
      rw [if_neg hstate]
      exact attend_cause _ attHold
  unfold holdSettle
  rw [if_neg (by rw [hr]; decide), if_neg (by rw [hw]; decide)]
  dsimp only
  split
  · exact habs
  · refine habs.offer.absorb ?_
    have himg : (holdOffer (holdAbsorb n)).image = n.image := by
      rw [holdOffer_eq]
      have h := congrArg Node.image (sansHold_holdAbsorb n)
      exact h
    exact ne_zero_of_bit (factorSet_operator _ ((holdRole_of_image himg).trans hr)
      (by rw [cfg_of_image himg]; exact hm) habs.offer.1)

/-- The node of another station's REQUEST for the operator at a joined holding node whose resume window is closed. -/
theorem operatorRequest_here (o : Origin) (n : Node) (on : Bool) (hj : isJoined n = true) (hr : holdRole n = true)
    (t : Telegram) (hpeers : (raiseNumbers (heardLink n.link o) t).resume = none) :
    operatorRequest (heardNode n o t) (cfg n).station on =
      if on then takeHoldOn (heardNode n o t) else takeClearHold (heardNode n o t) := by
  unfold operatorRequest
  rw [if_pos ⟨rfl, hj, hr⟩, if_neg]
  rintro ⟨-, h⟩
  have h' : (raiseNumbers (heardLink n.link o) t).resume.isSome = true := h
  rw [hpeers] at h'
  cases h'

theorem operatorRequest_elsewhere (n : Node) (station : Nat) (on : Bool) (h : station ≠ (cfg n).station) :
    operatorRequest n station on = n := if_neg (fun hq => h hq.1)

theorem holdWorks_intro {n : Node} (hj : isJoined n = true) (hr : holdRole n = true) (hres : n.link.resume = none) :
    holdWorks n = true := by simp [holdWorks, hj, hr, hres]

theorem appliesFrames_of_joined {n : Node} (h : isJoined n = true) : appliesFrames n = true := by
  have hst : n.st = .joined := by simpa [isJoined] using h
  simp [appliesFrames, hst]

theorem holdAbsorb_operator (n : Node) : (holdAbsorb n).hold.operator = n.hold.operator := by
  have hq : ∀ (m : Node) (f : CauseSet), (beginQuiet m f).hold.operator = m.hold.operator := by
    intro m f
    unfold beginQuiet
    split
    · rw [setHoldState_hold]
    · rfl
  unfold holdAbsorb
  dsimp only
  rw [hq]
  split
  · rfl
  · split
    · unfold setHold
      rw [setHoldState_hold]
    · rw [growHold_hold]

theorem holdSettle_hold_operator (n : Node) : (holdSettle n).hold.operator = n.hold.operator := by
  unfold holdSettle
  split
  · rfl
  · split
    · rfl
    · dsimp only
      split
      · exact holdAbsorb_operator n
      · unfold holdOfferWanted
        rw [holdAbsorb_operator, holdOffer_eq]
        exact holdAbsorb_operator n

theorem holdOnSetsTheHold : Claims.HoldOnSetsTheHold := by
  intro o s hj hr hres hne hd hs
  have ha := appliesFrames_of_joined hj
  have hhere := operatorRequest_here o s.node true hj hr (.request .holdOn (cfg s.node).station) hres
  refine ⟨fun hm hown hst hseen => after_meaning ?_, fun hm => after_meaning ?_, fun arg harg => after_meaning ?_⟩
  · have happ : handOver (heardNode s.node o (.request .holdOn (cfg s.node).station)) o false false
        (.request .holdOn (cfg s.node).station) =
        { heardNode s.node o (.request .holdOn (cfg s.node).station) with hold := { s.node.hold with operator := true } } :=
      hhere.trans (if_pos hm)
    have hc : meaning (.requestHoldOn o (cfg s.node).station) s.node = _ :=
      completeFrame_heard s.node o (.request .holdOn (cfg s.node).station) ha hs hd hne _ happ rfl rfl
    have hheld := holdSettle_operator (clearFrame
      { heardNode s.node o (.request .holdOn (cfg s.node).station) with hold := { s.node.hold with operator := true } })
      (holdWorks_intro hj hr hres) hm rfl hown hst hseen
    rw [hc]
    have hset := factorSet_operator (holdSettle (clearFrame
      { heardNode s.node o (.request .holdOn (cfg s.node).station) with hold := { s.node.hold with operator := true } }))
      (by rw [holdRole_of_image (holdSettle_image _)]; exact hr) (by rw [cfg_holdSettle]; exact hm) hheld.1
    obtain ⟨hop, hstate, hown', hatt⟩ := hheld
    exact ⟨hop, hstate, hset, hown', hatt⟩
  · have hmask : ¬(cfg s.node).factorMask.getLsbD 9 = true := by rw [hm]; decide
    have happ : handOver (heardNode s.node o (.request .holdOn (cfg s.node).station)) o false false
        (.request .holdOn (cfg s.node).station) =
        countRefusal (heardNode s.node o (.request .holdOn (cfg s.node).station)) := hhere.trans (if_neg hmask)
    have hc : meaning (.requestHoldOn o (cfg s.node).station) s.node = _ :=
      completeFrame_heard s.node o (.request .holdOn (cfg s.node).station) ha hs hd hne _ happ rfl rfl
    rw [hc, holdSettle_hold_operator, holdSettle_refusals]
    exact ⟨rfl, rfl⟩
  · have happ : handOver (heardNode s.node o (.request .holdOn arg)) o false false (.request .holdOn arg) =
        heardNode s.node o (.request .holdOn arg) := operatorRequest_elsewhere _ arg true harg
    have hc : meaning (.requestHoldOn o arg) s.node = _ :=
      completeFrame_heard s.node o (.request .holdOn arg) ha hs hd hne _ happ rfl rfl
    rw [hc, holdSettle_hold_operator, holdSettle_refusals]
    exact ⟨rfl, rfl⟩

/-! ### CLEAR_HOLD (R148) -/

/-- The factors of a node but PEER_LOST. -/
def factorOthers (n : Node) : CauseSet :=
  causeBit 0 (registerUnlocked n) ||| causeBit 1 (markLost n) ||| causeBit 2 n.travel.speedStep |||
    causeBit 3 n.travel.webReversed ||| causeBit 4 (jobMismatch n) ||| causeBit 6 n.link.linkFault |||
    causeBit 7 n.shade.edge ||| causeBit 8 (headFault n) ||| causeBit 9 n.hold.operator

theorem factorInputs_other (n : Node) (i : Nat) (hi : i < 16) (h5 : i ≠ 5) :
    (factorInputs n).getLsbD i = (factorOthers n).getLsbD i := by
  have h : decide (5 = i) = false := decide_eq_false (fun h => h5 h.symm)
  simp only [factorInputs, factorOthers, BitVec.getLsbD_or, causeBit_getLsbD 5 i _ hi, h, Bool.and_false, Bool.or_false]

theorem factorInputs_peerLost (n : Node) : (factorInputs n).getLsbD 5 = peerLost n := by
  simp only [factorInputs, BitVec.getLsbD_or, causeBit_getLsbD _ 5 _ (by decide)]
  simp

theorem factorInputs_high (n : Node) (i : Nat) (h10 : 10 ≤ i) (hi : i < 16) : (factorInputs n).getLsbD i = false := by
  have hk : ∀ k, k < 10 → decide (k = i) = false := fun k hk => decide_eq_false (by omega)
  simp only [factorInputs, BitVec.getLsbD_or, causeBit_getLsbD _ i _ hi, hk 0 (by decide), hk 1 (by decide), hk 2 (by decide),
    hk 3 (by decide), hk 4 (by decide), hk 5 (by decide), hk 6 (by decide), hk 7 (by decide), hk 8 (by decide),
    hk 9 (by decide), Bool.and_false, Bool.or_false]

/-- The factor set of a node `m` with the factors of `n`, and PEER_LOST only where `n` has it. -/
theorem factorSet_fewer (n m : Node) (hi : m.image = n.image) (ho : factorOthers m = factorOthers n)
    (hp : peerLost m = true → peerLost n = true) (i : Nat) (hi16 : i < 16) :
    ((factorSet m).getLsbD i = true → (factorSet n).getLsbD i = true) ∧
    (i ≠ 5 → (factorSet m).getLsbD i = (factorSet n).getLsbD i) := by
  unfold factorSet
  rw [holdRole_of_image hi, cfg_of_image hi]
  split
  · rw [BitVec.getLsbD_and, BitVec.getLsbD_and]
    by_cases h5 : i = 5
    · subst h5
      rw [factorInputs_peerLost, factorInputs_peerLost, Bool.and_eq_true, Bool.and_eq_true]
      exact ⟨fun h => ⟨hp h.1, h.2⟩, fun h => absurd rfl h⟩
    · rw [factorInputs_other m i hi16 h5, factorInputs_other n i hi16 h5, ho]
      exact ⟨id, fun _ => rfl⟩
  · exact ⟨id, fun _ => rfl⟩

/-- A frame changes no entry but its sender's. -/
theorem mem_peerFrame (n : Node) (k : Nat) (t : Telegram) (p : Peer) (h : p ∈ (peerFrame n k t).peers) :
    p ∈ n.peers ∨ p = raiseHeard (hearPeer (peerAt n k)) (carriedRepeat t) := by
  have hset : ∀ q, p ∈ (setPeer n k q).peers → p ∈ n.peers ∨ p = q := by
    intro q hq
    unfold setPeer at hq
    split at hq
    · exact List.mem_or_eq_of_mem_set hq
    · exact Or.inl hq
  unfold peerFrame at h
  split at h
  · exact Or.inl h
  · split at h
    · exact Or.inl h
    · exact hset _ h

/-- Hearing a station ends no other dependency, and makes none LOST or DOWN. -/
theorem peerLost_heard (n : Node) (o : Origin) (t : Telegram) : peerLost (heardNode n o t) = true → peerLost n = true := by
  have hmem : peerAt n o.sender ∈ n.peers ∨ peerAt n o.sender = {} := by
    unfold peerAt
    split
    · by_cases hlt : o.sender - 1 < n.peers.length
      · exact Or.inl (by simp [List.getD, hlt])
      · exact Or.inr (by simp [List.getD, hlt])
    · exact Or.inr rfl
  have hdep : ∀ x, peerDependencyLost n (raiseHeard (hearPeer (peerAt n o.sender)) x) = true →
      peerDependencyLost n (peerAt n o.sender) = true := by
    intro x hx
    obtain ⟨-, hrole, hlearnt, hstate⟩ := raiseHeard_hearPeer (peerAt n o.sender) x
    unfold peerDependencyLost at hx ⊢
    rw [hrole, hlearnt, hstate] at hx
    cases hs : (peerAt n o.sender).state <;> rw [hs] at hx <;> simp_all
  have hany : n.peers.any (peerDependencyLost n) = false → (heardNode n o t).peers.any (peerDependencyLost n) = false := by
    intro hn
    have hp : (heardNode n o t).peers = (peerFrame n o.sender t).peers := rfl
    rw [hp, List.any_eq_false]
    rw [List.any_eq_false] at hn
    intro p hpm
    rcases mem_peerFrame n o.sender t p hpm with hm | rfl
    · exact hn p hm
    · intro hx
      have hlost := hdep _ hx
      rcases hmem with hm | hm
      · exact hn _ hm hlost
      · rw [hm] at hlost
        cases hlost
  intro h
  unfold peerLost at h ⊢
  rw [Bool.and_eq_true] at h ⊢
  refine ⟨h.1, ?_⟩
  refine Classical.byContradiction fun hc => ?_
  have hf := hany (by simpa using hc)
  have h2 : (heardNode n o t).peers.any (peerDependencyLost n) = true := h.2
  rw [hf] at h2
  cases h2

/-- R139: with no factor and the hold not HELD the Hold Unit takes nothing but the empty set. -/
theorem holdAbsorb_idle (n : Node) (hf : factorSet n = 0) (hs : n.hold.state ≠ .held) :
    holdAbsorb n = { n with hold := { n.hold with seen := 0 } } := by
  have hq : beginQuiet n 0 = n := if_neg (fun h => hs h.1)
  unfold holdAbsorb
  dsimp only
  rw [hf, if_pos (by simp), hq]

theorem holdSettle_idle (n : Node) (hw : holdWorks n = true) (hf : factorSet n = 0) (hs : n.hold.state ≠ .held) :
    holdSettle n = { n with hold := { n.hold with seen := 0 } } := by
  have hr : holdRole n = true := by
    unfold holdWorks at hw
    simp only [Bool.and_eq_true] at hw
    exact hw.1.1
  unfold holdSettle
  rw [if_neg (by rw [hr]; decide), if_neg (by rw [hw]; decide), holdAbsorb_idle n hf hs]
  exact if_pos rfl

theorem factorSet_zero (n : Node) (h : ∀ i, i < 10 → (factorSet n).getLsbD i = false) : factorSet n = 0 := by
  apply BitVec.eq_of_getLsbD_eq
  intro i hi
  have h0 : (0 : CauseSet).getLsbD i = false := BitVec.getLsbD_zero
  rw [h0]
  by_cases h10 : i < 10
  · exact h i h10
  · unfold factorSet
    split
    · rw [BitVec.getLsbD_and, factorInputs_high n i (by omega) hi]
      rfl
    · exact BitVec.getLsbD_zero

/-- With room in the queue a statement is offered without a fault. -/
theorem holdOffer_fault (n : Node) (hj : isJoined n = true) (hl : n.link.queue.length < 16) (hd : downQueued n = false) :
    (holdOffer n).link.linkFault = n.link.linkFault := by
  unfold holdOffer
  split
  · rfl
  · split
    · rfl
    · rw [enqueue_joined n _ false .hold hj hd hl]

/-- R148: the node whose hold the operator clears, its wanted CLEAR offered. -/
def operatorCleared (n : Node) (h : OwnHold) : Node :=
  holdOffer (setHoldState { n with hold := { n.hold with
    operator := false, own := none, quiet := 0, target := none, wanted := some (.clear (holdReference n) h.causes) } } .clear)

theorem operatorCleared_hold (n : Node) (h : OwnHold) :
    (operatorCleared n h).hold.operator = false ∧ (operatorCleared n h).hold.state = .clear ∧
    (operatorCleared n h).hold.own = none ∧
    (operatorCleared n h).hold.wanted = some (.clear (holdReference n) h.causes) ∧
    (operatorCleared n h) = { n with hold := (operatorCleared n h).hold, link := (operatorCleared n h).link,
                                     port := (operatorCleared n h).port } ∧
    linkRest (operatorCleared n h).link = linkRest n.link := by
  have hs : ∀ m : Node, setHoldState m .clear =
      { m with hold := { m.hold with state := .clear }, port := (setHoldState m .clear).port } := by
    intro m
    unfold setHoldState
    split
    · next h => rw [← h]
    · rfl
  unfold operatorCleared
  refine ⟨?_, ?_, ?_, ?_, ?_, ?_⟩
  · rw [holdOffer_eq, hs]
  · rw [holdOffer_eq, hs]
  · rw [holdOffer_eq, hs]
  · rw [holdOffer_eq, hs]
  · rw [holdOffer_eq, hs]
  · rw [holdOffer_linkRest, setHoldState_link]

theorem operatorCleared_fault (n : Node) (h : OwnHold) (hj : isJoined n = true) (hl : n.link.queue.length < 16)
    (hd : downQueued n = false) : (operatorCleared n h).link.linkFault = n.link.linkFault := by
  unfold operatorCleared
  rw [holdOffer_fault]
  · rw [setHoldState_link]
  · have hst := congrArg Node.st (sansHold_setHoldState { n with hold := { n.hold with
      operator := false, own := none, quiet := 0, target := none, wanted := some (.clear (holdReference n) h.causes) } } .clear)
    unfold isJoined at hj ⊢
    exact (congrArg (fun st => decide (st = NodeState.joined)) hst).trans hj
  · rw [setHoldState_link]
    exact hl
  · unfold downQueued
    rw [setHoldState_link]
    exact hd

/-- R148: with no factor but OPERATOR the hold is cleared. -/
theorem takeClearHold_clears (n : Node) (h : OwnHold) (ho : n.hold.own = some h) (hs : n.hold.state ≠ .clear)
    (hf : otherFactor n = false) (hz : factorSet (operatorCleared n h) = 0) :
    takeClearHold n = { operatorCleared n h with hold := { (operatorCleared n h).hold with seen := 0 } } := by
  have hdef : takeClearHold n = holdAbsorb (operatorCleared n h) := by
    unfold takeClearHold
    rw [if_neg (by rintro (hq | hq); exact hs hq; rw [hf] at hq; cases hq)]
    unfold clearHold
    dsimp only
    rw [ho]
    rfl
  rw [hdef, holdAbsorb_idle _ hz]
  rw [(operatorCleared_hold n h).2.1]
  decide

/-- The bits of the causes but OPERATOR, and but PEER_LOST and OPERATOR. -/
theorem cause_masks : ∀ i, i < 16 → ((0x1DF : CauseSet).getLsbD i = true → i ≠ 5 ∧ (0x1FF : CauseSet).getLsbD i = true) ∧
    (i < 9 → (0x1FF : CauseSet).getLsbD i = true) := by decide

theorem masked_eq_zero {a m : CauseSet} (h : a &&& m = 0) (i : Nat) (hm : m.getLsbD i = true) : a.getLsbD i = false := by
  have hb := congrArg (fun x : CauseSet => x.getLsbD i) h
  simpa [hm] using hb

theorem cause_mask_high : ∀ i, i < 16 → 9 ≤ i → (0x1FF : CauseSet).getLsbD i = false := by decide

theorem otherFactor_none (n : Node) (h : ∀ i, i < 9 → (factorSet n).getLsbD i = false) : otherFactor n = false := by
  unfold otherFactor
  rw [decide_eq_false_iff_not, Classical.not_not]
  apply BitVec.eq_of_getLsbD_eq
  intro i hi
  have h0 : (0 : CauseSet).getLsbD i = false := BitVec.getLsbD_zero
  rw [h0, BitVec.getLsbD_and]
  by_cases h9 : i < 9
  · rw [h i h9]
    rfl
  · rw [cause_mask_high i hi (by omega), Bool.and_false]

/-- The factors but OPERATOR stand in the blocks that the Hold Unit does not write, and in LINK_FAULT. -/
theorem factorInputs_hold (n : Node) (u : HoldUnit) (l : Link) (p : Port) (hl : l.linkFault = n.link.linkFault) (i : Nat)
    (hi : i < 16) (h9 : i ≠ 9) :
    (factorInputs { n with hold := u, link := l, port := p }).getLsbD i = (factorInputs n).getLsbD i := by
  have h : decide (9 = i) = false := decide_eq_false (fun h => h9 h.symm)
  have hm : factorInputs { n with hold := u, link := l, port := p } =
      causeBit 0 (registerUnlocked n) ||| causeBit 1 (markLost n) ||| causeBit 2 n.travel.speedStep |||
        causeBit 3 n.travel.webReversed ||| causeBit 4 (jobMismatch n) ||| causeBit 5 (peerLost n) |||
        causeBit 6 l.linkFault ||| causeBit 7 n.shade.edge ||| causeBit 8 (headFault n) ||| causeBit 9 u.operator := rfl
  rw [hm, hl]
  simp only [factorInputs, BitVec.getLsbD_or, causeBit_getLsbD 9 i _ hi, h, Bool.and_false]

/-- R148: CLEAR_HOLD at a node with no factor but OPERATOR clears its hold, and the Hold Unit leaves it so. -/
theorem takeClearHold_settled (m : Node) (h : OwnHold) (hw : holdWorks m = true) (hl : m.link.queue.length < 16)
    (hd : downQueued m = false) (ho : m.hold.own = some h) (hs : m.hold.state ≠ .clear)
    (hbits : ∀ i, i < 9 → (factorSet m).getLsbD i = false) :
    (takeClearHold m).image = m.image ∧ linkRest (takeClearHold m).link = linkRest m.link ∧
    (let u := (holdSettle (clearFrame (takeClearHold m))).hold
     u.operator = false ∧ u.state = .clear ∧ u.own = none ∧ u.wanted = some (.clear (holdReference m) h.causes)) := by
  obtain ⟨hop, hstate, hown, hwant, hframe, hrest⟩ := operatorCleared_hold m h
  have hj : isJoined m = true := by
    unfold holdWorks at hw
    simp only [Bool.and_eq_true] at hw
    exact hw.1.2
  have hfault := operatorCleared_fault m h hj hl hd
  generalize hk : operatorCleared m h = k at hop hstate hown hwant hframe hrest hfault
  have himg : k.image = m.image := by
    rw [hframe]
  have hzero : ∀ (u : HoldUnit) (l : Link), u.operator = false → l.linkFault = m.link.linkFault →
      factorSet { k with hold := u, link := l } = 0 := by
    intro u l hu hlf
    have heq : ({ k with hold := u, link := l } : Node) = { m with hold := u, link := l, port := k.port } := by
      rw [hframe]
    rw [heq]
    apply factorSet_zero
    intro i hi
    unfold factorSet
    split
    · next hr =>
      rw [BitVec.getLsbD_and]
      by_cases h9 : i = 9
      · subst h9
        rw [factorInputs_operator]
        show (u.operator && _) = false
        rw [hu]
        rfl
      · rw [factorInputs_hold m u l k.port hlf i (by omega) h9]
        have hb := hbits i (by omega)
        unfold factorSet at hb
        rw [if_pos (show holdRole m = true from hr), BitVec.getLsbD_and] at hb
        exact hb
    · exact BitVec.getLsbD_zero
  have hclear : takeClearHold m = { k with hold := { k.hold with seen := 0 } } := by
    have h0 := takeClearHold_clears m h ho hs (otherFactor_none m hbits) (by rw [hk]; exact hzero k.hold k.link hop hfault)
    rw [hk] at h0
    exact h0
  have hwk : holdWorks (clearFrame { k with hold := { k.hold with seen := 0 } }) = true := by
    have hst : k.st = m.st := by rw [hframe]
    have hres : k.link.resume = m.link.resume := (linkRest_fields hrest).2.2.2.2.2.1
    unfold holdWorks at hw ⊢
    have hrole : holdRole (clearFrame { k with hold := { k.hold with seen := 0 } }) = holdRole m := holdRole_of_image himg
    rw [hrole]
    simpa [isJoined, clearFrame, hst, hres] using hw
  rw [hclear]
  refine ⟨himg, hrest, ?_⟩
  rw [holdSettle_idle _ hwk (hzero _ _ hop hfault) (by
    show k.hold.state ≠ .held
    rw [hstate]
    decide)]
  exact ⟨hop, hstate, hown, hwant⟩

theorem takeClearHold_refused (m : Node) (h : m.hold.state = .clear ∨ otherFactor m = true) :
    takeClearHold m = countRefusal m := if_pos h

theorem clearHoldEndsTheHold : Claims.ClearHoldEndsTheHold := by
  intro o s hj hr hres hne hd hs hl hdown
  have ha := appliesFrames_of_joined hj
  have hhere := operatorRequest_here o s.node false hj hr (.request .clearHold (cfg s.node).station) hres
  have hfewer := factorSet_fewer s.node (heardNode s.node o (.request .clearHold (cfg s.node).station)) rfl rfl
    (peerLost_heard s.node o _)
  refine ⟨fun h ho hst hf => after_meaning ?_, fun hrefuse => after_meaning ?_⟩
  · have hbits : ∀ i, i < 9 → (factorSet (heardNode s.node o (.request .clearHold (cfg s.node).station))).getLsbD i = false := by
      intro i hi
      refine Classical.byContradiction fun hc => ?_
      have h1 := (hfewer i (by omega)).1 (by simpa using hc)
      rw [masked_eq_zero hf i ((cause_masks i (by omega)).2 hi)] at h1
      cases h1
    obtain ⟨himg, hrest, hres'⟩ := takeClearHold_settled (heardNode s.node o (.request .clearHold (cfg s.node).station)) h
      (holdWorks_intro hj hr hres) hl hdown ho hst hbits
    have hc : meaning (.requestClearHold o (cfg s.node).station) s.node = _ :=
      completeFrame_heard s.node o (.request .clearHold (cfg s.node).station) ha hs hd hne _ hhere himg
        (linkRest_fields hrest).2.2.1
    rw [hc]
    exact hres'
  · have hm : (heardNode s.node o (.request .clearHold (cfg s.node).station)).hold.state = .clear ∨
        otherFactor (heardNode s.node o (.request .clearHold (cfg s.node).station)) = true := by
      refine hrefuse.imp id fun hf => ?_
      unfold otherFactor
      rw [decide_eq_true_eq]
      intro hz
      refine hf (BitVec.eq_of_getLsbD_eq fun i hi => ?_)
      have h0 : (0 : CauseSet).getLsbD i = false := BitVec.getLsbD_zero
      rw [h0, BitVec.getLsbD_and]
      by_cases hb : (0x1DF : CauseSet).getLsbD i = true
      · obtain ⟨h5, h1ff⟩ := (cause_masks i hi).1 hb
        rw [← (hfewer i hi).2 h5, masked_eq_zero hz i h1ff]
        rfl
      · rw [eq_false_of_ne_true hb, Bool.and_false]
    have hc : meaning (.requestClearHold o (cfg s.node).station) s.node = _ :=
      completeFrame_heard s.node o (.request .clearHold (cfg s.node).station) ha hs hd hne _
        (hhere.trans (takeClearHold_refused _ hm)) rfl rfl
    rw [hc, holdSettle_hold_operator, holdSettle_refusals]
    exact ⟨rfl, rfl⟩

/-- Settles O25: the hold that OPERATOR sets, and the hold that it clears, by the factors that hearing the frame leaves. -/
theorem operatorHolds : Obligations.OperatorHolds := ⟨holdOnSetsTheHold, clearHoldEndsTheHold⟩

end Sys2Proof.Proofs
end

/-! PROOFS. The line link: slots, the checks of a received frame, and the ends of the node's own attempts (R20 to R26). -/
section
namespace Sys2Proof.Proofs

open Sys2Proof.Machine Sys2Proof.Laws Sys2Proof.Claims

/-! ### Slots (R21) -/

theorem slotStart_counts (n : Node) (k : Nat) (hs : n.link.slot = some k) (hw : tracksW n = true) :
    slotStart n = if begins n (if k < 31 then k + 1 else 1) then
        { n with link := { n.link with slot := none, sending := true, stopped := false, silentMs := 0 } }
      else { n with link := { n.link with slot := some (if k < 31 then k + 1 else 1) } } := by
  unfold slotStart
  rw [hs]
  exact if_neg (by rw [hw]; decide)

theorem slotStart_idle (n : Node) (h : n.link.slot = none ∨ tracksW n = false) : slotStart n = n := by
  unfold slotStart
  split
  · rfl
  · next k hk =>
    rcases h with h | h
    · rw [h] at hk; cases hk
    · exact if_pos (by rw [h]; rfl)

/-- Settles O27, by the slots in which the node begins its frame. -/
theorem slotStartCountsOrSends : Obligations.SlotStartCountsOrSends := by
  intro s
  refine ⟨fun k hk hw => ?_, fun h => gives_of_meaning (c := .slotStart) (slotStart_idle s.node h)⟩
  have hcount := slotStart_counts s.node k hk hw
  have hstay : begins s.node (if k < 31 then k + 1 else 1) = false → Gives .slotStart s
      { s.node with link := { s.node.link with slot := some (if k < 31 then k + 1 else 1) } } := by
    intro hb
    refine gives_of_meaning (c := .slotStart) ?_
    show slotStart s.node = _
    rw [hcount, hb]
    rfl
  refine ⟨fun hmine => hstay ?_, fun e rest hq hmine hst hsend => after_meaning ?_, fun h => hstay ?_⟩
  · have hd : decide (slotOwner s.node.link.w (if k < 31 then k + 1 else 1) = (cfg s.node).station) = false := hmine
    unfold begins
    rw [hd]
    rfl
  · have hd : decide (slotOwner s.node.link.w (if k < 31 then k + 1 else 1) = (cfg s.node).station) = true := hmine
    have hb : begins s.node (if k < 31 then k + 1 else 1) = true := by
      unfold begins
      rw [hd, hst, hq]
      exact hsend
    have hm : meaning .slotStart s.node = { s.node with link := { s.node.link with
        slot := none, sending := true, stopped := false, silentMs := 0 } } := hcount.trans (if_pos hb)
    rw [hm]
    refine ⟨rfl, rfl, rfl, ?_⟩
    unfold txBits
    dsimp only
    rw [hq]
    rfl
  · unfold begins
    rcases h with h | h
    · rw [h, Bool.not_true, Bool.and_false, Bool.false_and]
    · rw [Bool.and_eq_false_iff]
      refine Or.inr ?_
      cases hh : s.node.link.queue.head? with
      | none => rfl
      | some e => exact h e hh

/-! ### The stuffing (R20) -/

/-- Removing the stuffing gives the bits back, at every level and every run that the sender reaches. -/
theorem destuff_stuffFrom (bits : List Bool) (level : Bool) (run : Nat) (h : run < 5) :
    destuffFrom (stuffFrom bits level run) level run = some bits := by
  induction bits generalizing level run with
  | nil => rfl
  | cons b rest ih =>
    have hne : run ≠ 5 := Nat.ne_of_lt h
    unfold stuffFrom
    dsimp only
    by_cases h5 : (if run ≠ 0 ∧ b = level then run + 1 else 1) = 5
    · rw [if_pos h5]
      have hin : destuffFrom ((!b) :: stuffFrom rest (!b) 1) b 5 = some rest := by
        unfold destuffFrom
        rw [if_pos rfl, if_neg (by cases b <;> decide)]
        exact ih (!b) 1 (by decide)
      unfold destuffFrom
      rw [if_neg hne, h5, hin]
      rfl
    · rw [if_neg h5]
      have hle : (if run ≠ 0 ∧ b = level then run + 1 else 1) ≤ 5 := by
        split <;> omega
      have hlt := Nat.lt_of_le_of_ne hle h5
      unfold destuffFrom
      rw [if_neg hne, ih b _ hlt]
      rfl

theorem destuff_stuff (bits : List Bool) : destuff (stuff bits) = some bits := destuff_stuffFrom bits false 0 (by decide)

/-! ### Bits and bytes -/

theorem bitsOf_length (n v : Nat) : (bitsOf n v).length = n := by
  induction n with
  | zero => rfl
  | succ n ih => exact congrArg (· + 1) ih

theorem bitsValue_bitsOf (n v : Nat) : bitsValue (bitsOf n v) = v % 2 ^ n := by
  have hf : ∀ acc, (bitsOf n v).foldl (fun a b => 2 * a + (if b then 1 else 0)) acc = acc * 2 ^ n + v % 2 ^ n := by
    induction n with
    | zero => intro acc; simp [bitsOf, Nat.mod_one]
    | succ n ih =>
      intro acc
      show (bitsOf n v).foldl _ (2 * acc + (if v.testBit n then 1 else 0)) = _
      have hb : (if v.testBit n then 1 else 0) = v / 2 ^ n % 2 := by
        rw [Nat.testBit_eq_decide_div_mod_eq]
        rcases Nat.mod_two_eq_zero_or_one (v / 2 ^ n) with h | h <;> simp [h]
      rw [ih, Nat.mod_pow_succ, hb, Nat.pow_succ, Nat.add_mul, Nat.mul_comm (2 ^ n) (v / 2 ^ n % 2), Nat.mul_assoc 2,
        ← Nat.mul_assoc acc]
      omega
  have h0 := hf 0
  rw [Nat.zero_mul, Nat.zero_add] at h0
  exact h0

theorem bitsValue_word (n v : Nat) (h : v < 2 ^ n) : bitsValue (bitsOf n v) = v := by
  rw [bitsValue_bitsOf, Nat.mod_eq_of_lt h]

theorem bytesBits_length (bs : List Byte) : (bytesBits bs).length = 8 * bs.length := by
  induction bs with
  | nil => rfl
  | cons b bs ih =>
    have hc : bytesBits (b :: bs) = bitsOf 8 b.toNat ++ bytesBits bs := rfl
    rw [hc, List.length_append, bitsOf_length, ih, List.length_cons]
    omega

theorem bytesOfBits_bytesBits (bs : List Byte) (tail : List Bool) : bytesOfBits bs.length (bytesBits bs ++ tail) = bs := by
  induction bs with
  | nil => rfl
  | cons b bs ih =>
    have hc : bytesBits (b :: bs) ++ tail = bitsOf 8 b.toNat ++ (bytesBits bs ++ tail) := by
      rw [← List.append_assoc]
      rfl
    have h8 := bitsOf_length 8 b.toNat
    show byte (bitsValue ((bytesBits (b :: bs) ++ tail).take 8)) :: bytesOfBits bs.length ((bytesBits (b :: bs) ++ tail).drop 8) = _
    rw [hc, List.take_left' h8, List.drop_left' h8, ih, bitsValue_word 8 b.toNat b.isLt]
    have hb : byte b.toNat = b := BitVec.eq_of_toNat_eq (by simp [byte])
    rw [hb]

/-! ### The checks of a frame as sent (R23) -/

/-- A frame whose header counts its payload passes the checks when Table 15 allows the payload. -/
theorem frameGood_of_payload (sender kind : Nat) (restate : Bool) (bytes : List Byte) (hs : sender ≤ 31) (hk : kind ≤ 15)
    (hl : bytes.length ≤ 63) (hp : payloadGood kind bytes = true) :
    frameGood (stuff ((bitsOf 16 (headerWord sender kind restate bytes.length) ++ bytesBits bytes) ++
      bitsOf 16 (crc16 (bitsOf 16 (headerWord sender kind restate bytes.length) ++ bytesBits bytes)).toNat)) = true := by
  have hflag : (if restate then 64 else 0) ≤ 64 ∧ ((if restate then 64 else 0) = 0 ∨ (if restate then 64 else 0) = 64) := by
    cases restate <;> decide
  have hword : headerWord sender kind restate bytes.length < 2 ^ 16 := by
    unfold headerWord
    omega
  have hlen : headerWord sender kind restate bytes.length % 64 = bytes.length := by
    unfold headerWord
    omega
  have hkind : headerWord sender kind restate bytes.length / 128 % 16 = kind := by
    unfold headerWord
    omega
  generalize headerWord sender kind restate bytes.length = w at hword hlen hkind ⊢
  have h16 := bitsOf_length 16 w
  have hbody : (bitsOf 16 w ++ bytesBits bytes).length = 16 + 8 * bytes.length := by
    rw [List.length_append, h16, bytesBits_length]
  generalize hcrc : bitsOf 16 (crc16 (bitsOf 16 w ++ bytesBits bytes)).toNat = crc
  have hcl : crc.length = 16 := by rw [← hcrc]; exact bitsOf_length 16 _
  have hcv : bitsValue crc = (crc16 (bitsOf 16 w ++ bytesBits bytes)).toNat := by
    rw [← hcrc]
    exact bitsValue_word 16 _ (BitVec.isLt _)
  have htake : ((bitsOf 16 w ++ bytesBits bytes) ++ crc).take 16 = bitsOf 16 w := by
    rw [List.append_assoc]
    exact List.take_left' h16
  have hdrop : ((bitsOf 16 w ++ bytesBits bytes) ++ crc).drop 16 = bytesBits bytes ++ crc := by
    rw [List.append_assoc]
    exact List.drop_left' h16
  unfold frameGood
  rw [destuff_stuff]
  dsimp only
  rw [htake, hdrop, bitsValue_word 16 w hword, hlen, hkind, List.take_left' hbody, List.drop_left' hbody, hcv,
    bytesOfBits_bytesBits, hp, List.length_append, hbody, hcl]
  simp

/-- Table 15 allows the payload that a telegram of a defined code carries. -/
theorem payloadGood_sent (t : Telegram) (h : ∀ p, t ≠ .undefined p) : payloadGood t.kindCode (payloadBytes t) = true := by
  cases t with
  | undefined p => exact absurd rfl (h p)
  | resume p =>
    obtain ⟨role, slot, rep, roll, batch, job⟩ := p
    cases job <;> rfl
  | repeat_ p =>
    obtain ⟨number, length, job, splice⟩ := p
    cases splice <;> rfl
  | register p =>
    obtain ⟨number, slot, state, steps, error, nip⟩ := p
    cases error <;> cases nip <;> rfl
  | shade p =>
    obtain ⟨number, grade, left, right⟩ := p
    cases left <;> cases right <;> rfl
  | join p => rfl
  | present => rfl
  | down c => rfl
  | request k a => rfl
  | jobTaken p => rfl
  | jobRefused p => rfl
  | batchOpened p => rfl
  | batchFixed p m => rfl
  | holdSet x c => rfl
  | holdClear x c => rfl
  | roll p => rfl
  | labelled x o => rfl

/-- Table 15: a good payload of a defined kind has at most 22 bytes. -/
theorem payloadGood_length (kind : Nat) (p : List Byte) (h : payloadGood kind p = true) : p.length ≤ 63 := by
  unfold payloadGood at h
  (repeat' split at h) <;> simp only [decide_eq_true_eq, Bool.or_eq_true, Bool.false_eq_true] at h <;> omega

theorem kindCode_sent (t : Telegram) (h : ∀ p, t ≠ .undefined p) : t.kindCode ≤ 15 := by
  cases t with
  | undefined p => exact absurd rfl (h p)
  | _ => simp [Telegram.kindCode]

/-- Settles O28: the stuffing by `destuff_stuff`, the checks by the header that counts the payload. -/
theorem sentFramesPassTheChecks : Obligations.SentFramesPassTheChecks := by
  intro sender restate t hs _ ht
  have hgood := payloadGood_sent t ht
  have h31 : sender ≤ 31 := by
    have h : 1 ≤ sender ∧ sender ≤ 31 := by simpa [wfStation] using hs
    exact h.2
  exact ⟨destuff_stuff _, frameGood_of_payload sender t.kindCode restate (payloadBytes t) h31 (kindCode_sent t ht)
    (payloadGood_length _ _ hgood) hgood⟩

/-- Settles O29, by the branch of `frameCheck`. -/
theorem frameCheckVoidsFaultyFrames : Obligations.FrameCheckVoidsFaultyFrames := by
  intro bits s hs hw
  have hguard : ¬((!tracksW s.node) = true ∨ s.node.link.sending = true) := by
    rw [hw, hs]
    decide
  refine ⟨fun hg ha => gives_of_meaning (c := .frameCheck bits) ?_, fun hg ha => gives_of_meaning (c := .frameCheck bits) ?_,
    fun hg => gives_of_meaning (c := .frameCheck bits) ?_⟩
  · show frameCheck bits s.node = _
    unfold frameCheck
    rw [if_neg hguard, if_neg (by rw [hg]; decide), if_pos ha]
  · show frameCheck bits s.node = _
    unfold frameCheck
    rw [if_neg hguard, if_neg (by rw [hg]; decide), if_neg (by rw [ha]; decide)]
  · show frameCheck bits s.node = _
    unfold frameCheck
    rw [if_neg hguard, if_pos hg]

end Sys2Proof.Proofs
end

/-! PROOFS. Offers counted: what a number of offers leaves of the link, and the ends of the node's own attempts (R26, R31). -/
section
namespace Sys2Proof.Proofs

open Sys2Proof.Machine Sys2Proof.Laws Sys2Proof.Claims

/-! ### Offers (R21, R31) -/

/-- The node `a` has made at most `k` offers since `b`: the head of the queue stands, a LINK_FAULT stays, each offer drops one
telegram at most, and with room for all of them they join the end of the queue. -/
structure Offers (k : Nat) (a b : Node) : Prop where
  st : a.st = b.st
  attempts : a.link.attempts = b.link.attempts
  w : a.link.w = b.link.w
  completed : a.link.completed = b.link.completed
  sending : a.link.sending = b.link.sending
  sendElapsed : a.link.sendElapsed = b.link.sendElapsed
  seenVoids : a.link.seenVoids = b.link.seenVoids
  ownRun : b.link.ownRun = 0 → a.link.ownRun = 0
  fault : Faulted b → Faulted a
  dropped : ∃ j, j ≤ k ∧ a.link.dropped = b.link.dropped + BitVec.ofNat 32 j
  head : ∀ e, b.link.queue.head? = some e → a.link.queue.head? = some e
  room : b.link.queue.length + k ≤ 16 →
    a.link.dropped = b.link.dropped ∧ a.link.linkFault = b.link.linkFault ∧ a.link.ownRun = b.link.ownRun ∧
    ∃ more, more.length ≤ k ∧ a.link.queue = b.link.queue ++ more

theorem Offers.of_link {a b : Node} (hs : a.st = b.st) (hl : a.link = b.link) : Offers 0 a b where
  st := hs
  attempts := by rw [hl]
  w := by rw [hl]
  completed := by rw [hl]
  sending := by rw [hl]
  sendElapsed := by rw [hl]
  seenVoids := by rw [hl]
  ownRun := by rw [hl]; exact id
  fault := by unfold Faulted; rw [hl]; exact id
  dropped := ⟨0, Nat.le_refl _, by rw [hl]; simp⟩
  head := by rw [hl]; exact fun _ h => h
  room := fun _ => by rw [hl]; exact ⟨rfl, rfl, rfl, [], Nat.zero_le _, by simp⟩

theorem Offers.self (n : Node) : Offers 0 n n := .of_link rfl rfl

theorem Offers.trans {i j : Nat} {a b c : Node} (h1 : Offers i a b) (h2 : Offers j b c) : Offers (i + j) a c where
  st := h1.st.trans h2.st
  attempts := h1.attempts.trans h2.attempts
  w := h1.w.trans h2.w
  completed := h1.completed.trans h2.completed
  sending := h1.sending.trans h2.sending
  sendElapsed := h1.sendElapsed.trans h2.sendElapsed
  seenVoids := h1.seenVoids.trans h2.seenVoids
  ownRun := fun h => h1.ownRun (h2.ownRun h)
  fault := fun h => h1.fault (h2.fault h)
  dropped := by
    obtain ⟨x, hx, e1⟩ := h1.dropped
    obtain ⟨y, hy, e2⟩ := h2.dropped
    refine ⟨x + y, Nat.add_le_add hx hy, ?_⟩
    rw [e1, e2, BitVec.add_assoc, Nat.add_comm x y, BitVec.ofNat_add]
  head := fun e h => h1.head e (h2.head e h)
  room := by
    intro h
    obtain ⟨d2, f2, r2, m2, l2, q2⟩ := h2.room (by omega)
    have hroom : b.link.queue.length + i ≤ 16 := by
      rw [q2, List.length_append]
      omega
    obtain ⟨d1, f1, r1, m1, l1, q1⟩ := h1.room hroom
    refine ⟨d1.trans d2, f1.trans f2, r1.trans r2, m2 ++ m1, ?_, ?_⟩
    · rw [List.length_append]
      omega
    · rw [q1, q2, List.append_assoc]

theorem Offers.mono {i j : Nat} {a b : Node} (h : Offers i a b) (hij : i ≤ j) : Offers j a b where
  st := h.st
  attempts := h.attempts
  w := h.w
  completed := h.completed
  sending := h.sending
  sendElapsed := h.sendElapsed
  seenVoids := h.seenVoids
  ownRun := h.ownRun
  fault := h.fault
  dropped := by
    obtain ⟨x, hx, e⟩ := h.dropped
    exact ⟨x, Nat.le_trans hx hij, e⟩
  head := h.head
  room := by
    intro hr
    obtain ⟨d, f, r, m, l, q⟩ := h.room (by omega)
    exact ⟨d, f, r, m, Nat.le_trans l hij, q⟩

theorem evictRoutine_head (l q : List QEntry) (h : evictRoutine l = some q) : q.head? = l.head? := by
  cases l with
  | nil => cases h
  | cons x xs =>
    obtain ⟨m, -, rfl⟩ := Option.map_eq_some_iff.mp h
    rfl

theorem head_append {l more : List QEntry} {e : QEntry} (h : l.head? = some e) : (l ++ more).head? = some e := by
  cases l with
  | nil => cases h
  | cons x xs => exact h

theorem enqueue_offers (n : Node) (t : Telegram) (r : Bool) (b : OfferBy) : Offers 1 (enqueue n t r b).1 n := by
  unfold enqueue
  dsimp only
  split
  · exact (Offers.self n).mono (by decide)
  · split
    · exact ⟨rfl, rfl, rfl, rfl, rfl, rfl, rfl, id, id, ⟨0, by decide, by simp⟩, fun e h => head_append h,
        fun _ => ⟨rfl, rfl, rfl, [_], Nat.le_refl 1, rfl⟩⟩
    · next hfull =>
      have hno : n.link.queue.length + 1 ≤ 16 → False := fun h => hfull (by omega)
      split
      · exact ⟨rfl, rfl, rfl, rfl, rfl, rfl, rfl, id, id, ⟨0, by decide, by simp⟩, fun e h => h, fun h => (hno h).elim⟩
      · split
        · next q hq =>
          refine ⟨rfl, rfl, rfl, rfl, rfl, rfl, rfl, id, id, ⟨0, by decide, by simp⟩, fun e h => ?_, fun h => (hno h).elim⟩
          exact head_append ((evictRoutine_head _ _ hq).trans h)
        · exact ⟨rfl, rfl, rfl, rfl, rfl, rfl, rfl, fun _ => rfl, fun _ => ⟨rfl, rfl⟩, ⟨1, by decide, rfl⟩, fun e h => h,
            fun h => (hno h).elim⟩

/-- A node with the same node state and a link that differs in no field that `Offers` speaks of. -/
theorem Offers.after {k : Nat} {a b c : Node} (h : Offers k b c) (hab : Offers 0 a b) : Offers k a c := by
  have h' := hab.trans h
  rwa [Nat.zero_add] at h'

theorem Offers.before {k : Nat} {a b c : Node} (h : Offers k a b) (hbc : Offers 0 b c) : Offers k a c := h.trans hbc

theorem refuseLater_offers (n : Node) (o : Reoffer) : Offers 0 (refuseLater n o) n :=
  ⟨rfl, rfl, rfl, rfl, rfl, rfl, rfl, id, id, ⟨0, by decide, by simp [refuseLater]⟩, fun e h => h,
    fun _ => ⟨rfl, rfl, rfl, [], Nat.zero_le _, by simp [refuseLater]⟩⟩

theorem offerAgain_offers (n : Node) (t : Telegram) (r : Bool) (b : OfferBy) (o : Reoffer) :
    Offers 1 (offerAgain n t r b o) n := by
  have h := enqueue_offers n t r b
  unfold offerAgain
  split
  · next m hm => rw [hm] at h; exact h.after (refuseLater_offers m o)
  · next m _ _ hm => rw [hm] at h; exact h

theorem holdOffer_offers (n : Node) : Offers 1 (holdOffer n) n := by
  unfold holdOffer
  split
  · exact (Offers.self n).mono (by decide)
  · next w _ =>
    have h := enqueue_offers n (statementTelegram w) false .hold
    split
    · exact (Offers.self n).mono (by decide)
    · split
      · next m hm => rw [hm] at h; exact h.after (.of_link rfl rfl)
      · next m hm =>
        rw [hm] at h
        have hw : Offers 0 { m with hold := { m.hold with waiting := true } } m := .of_link rfl rfl
        exact (h.after hw).after (refuseLater_offers _ _)
      · next m _ _ _ hm => rw [hm] at h; exact h

theorem holdAbsorb_offers (n : Node) : Offers 0 (holdAbsorb n) n := by
  have h := congrArg Node.st (sansHold_holdAbsorb n)
  exact .of_link h (holdAbsorb_link n)

theorem holdOfferWanted_offers (n : Node) : Offers 1 (holdOfferWanted n) n :=
  (holdOffer_offers n).after (holdAbsorb_offers _)

/-- The Hold Unit makes one offer at most. -/
theorem holdSettle_offers (n : Node) : Offers 1 (holdSettle n) n := by
  unfold holdSettle
  split
  · exact (Offers.self n).mono (by decide)
  · split
    · exact Offers.mono (.of_link rfl rfl) (Nat.zero_le 1)
    · dsimp only
      split
      · exact (holdAbsorb_offers n).mono (by decide)
      · exact (holdOfferWanted_offers _).before (holdAbsorb_offers n)

/-! ### The end of an offer of the node's own -/

theorem offerResume_offers (n : Node) : Offers 1 (offerResume n) n := offerAgain_offers n _ _ _ _

theorem offerJob_offers (n : Node) : Offers 1 (offerJob n) n := by
  unfold offerJob
  split
  · exact (Offers.self n).mono (by decide)
  · exact offerAgain_offers n _ _ _ _

theorem offerOpened_offers (n : Node) (p : BatchPayload) : Offers 1 (offerOpened n p) n := offerAgain_offers n _ _ _ _

theorem offerFixed_offers (n : Node) (p : BatchPayload) (t : Triple) : Offers 1 (offerFixed n p t) n :=
  offerAgain_offers n _ _ _ _

theorem offerRoll_offers (n : Node) (x : Nat) : Offers 1 (offerRoll n x) n := by
  unfold offerRoll
  split
  · exact (Offers.self n).mono (by decide)
  · exact offerAgain_offers n _ _ _ _

theorem offerRegrade_offers (n : Node) (x : Nat) (ch : RollChange) : Offers 1 (offerRegrade n x ch) n := by
  unfold offerRegrade
  split
  · exact (Offers.self n).mono (by decide)
  · exact offerAgain_offers n _ _ _ _

theorem offerLabelled_offers (n : Node) (o : OutcomeEntry) : Offers 1 (offerLabelled n o) n := by
  have h := enqueue_offers n (.labelled o.number o.outcome) false (.labelled o.serial)
  unfold offerLabelled
  split
  · next m hm =>
    rw [hm] at h
    split
    · exact h.after (.of_link rfl rfl)
    · exact h.after (refuseLater_offers m _)
  · next m _ _ hm => rw [hm] at h; exact h

/-- The restate registers of the link are no part of what `Offers` speaks of. -/
theorem restates_offers (n : Node) (b : RestateBatch) (h : RestateHold) (r : RestateRoll) :
    Offers 0 { n with link := { n.link with restBatch := b, restHold := h, restRoll := r } } n :=
  ⟨rfl, rfl, rfl, rfl, rfl, rfl, rfl, id, id, ⟨0, by decide, by simp⟩, fun e h => h,
    fun _ => ⟨rfl, rfl, rfl, [], Nat.zero_le _, by simp⟩⟩

theorem nextRestateBatch_offers (n : Node) : Offers 1 (nextRestateBatch n) n := by
  unfold nextRestateBatch
  split
  · exact (Offers.self n).mono (by decide)
  · dsimp only
    split
    · exact (restates_offers n _ n.link.restHold n.link.restRoll).mono (by decide)
    · exact (offerAgain_offers _ _ _ _ _).before (restates_offers n _ n.link.restHold n.link.restRoll)

theorem nextRestateHold_offers (n : Node) : Offers 1 (nextRestateHold n) n := by
  unfold nextRestateHold
  split
  · exact (Offers.self n).mono (by decide)
  · dsimp only
    split
    · exact (restates_offers n n.link.restBatch _ n.link.restRoll).mono (by decide)
    · exact (offerAgain_offers _ _ _ _ _).before (restates_offers n n.link.restBatch _ n.link.restRoll)

theorem nextRestateRoll_offers (n : Node) : Offers 1 (nextRestateRoll n) n := by
  unfold nextRestateRoll
  split
  · exact (Offers.self n).mono (by decide)
  · dsimp only
    split
    · exact (restates_offers n n.link.restBatch n.link.restHold _).mono (by decide)
    · exact (offerAgain_offers _ _ _ _ _).before (restates_offers n n.link.restBatch n.link.restHold _)

theorem dropHold_offers (n : Node) : Offers 1 (dropHold n) n := by
  unfold dropHold
  dsimp only
  split
  · exact ((holdOfferWanted_offers _).before (holdAbsorb_offers (endHoldOffer n))).before (.of_link rfl rfl)
  · exact Offers.mono (.of_link rfl rfl) (Nat.zero_le 1)

theorem reofferLabelled_offers (n : Node) (o : OutcomeEntry) : Offers 1 (reofferLabelled n o) n := by
  unfold reofferLabelled
  split
  · exact Offers.mono (.of_link rfl rfl) (Nat.zero_le 1)
  · split
    · exact offerLabelled_offers n o
    · exact (Offers.self n).mono (by decide)

theorem endRequest_offers (n : Node) (x : SlotState) : Offers 0 (endRequest n x) n := by
  rw [endRequest_eq]
  exact .of_link rfl rfl

/-- The block whose telegram was dropped makes one offer at most. -/
theorem offerDropped_offers (n : Node) (e : QEntry) : Offers 1 (offerDropped n e) n := by
  unfold offerDropped
  split
  · exact offerResume_offers n
  · exact (endRequest_offers n _).mono (by decide)
  · exact offerJob_offers n
  · unfold reofferOpened
    split
    · exact offerOpened_offers n _
    · exact Offers.mono (.of_link rfl rfl) (Nat.zero_le 1)
  · unfold reofferFixed
    split
    · exact offerFixed_offers n _ _
    · exact (Offers.self n).mono (by decide)
  · exact dropHold_offers n
  · exact (nextRestateBatch_offers _).before (restates_offers n _ n.link.restHold n.link.restRoll)
  · exact (nextRestateHold_offers _).before (restates_offers n n.link.restBatch _ n.link.restRoll)
  · exact (nextRestateRoll_offers _).before (restates_offers n n.link.restBatch n.link.restHold _)
  · exact offerRoll_offers n _
  · exact offerRegrade_offers n _ _
  · exact reofferLabelled_offers n _
  · exact (Offers.self n).mono (by decide)

/-! ### The third ended attempt (R26) -/

/-- The end of an own frame that was voided or cut short, before its attempt ends. -/
def failedNode (n : Node) : Node := badEnd (countSeen (hearEnd n))

/-- A failed end of the node's own frame settles with what the end of the attempt leaves. -/
theorem failedEnd_own (n : Node) (a : Node) (ha : attemptEnds (failedNode n) = a) (hs : a.st ≠ .listening) :
    failedEnd n true = holdSettle (clearFrame a) := by
  have hl : listenEnd a = a := if_neg (fun h => hs h.1)
  show holdSettle (clearFrame (listenEnd (attemptEnds (failedNode n)))) = _
  rw [ha, hl]

theorem clearFrame_offers (n : Node) : Offers 0 (clearFrame n) n :=
  ⟨rfl, rfl, rfl, rfl, rfl, rfl, rfl, id, id, ⟨0, by decide, by simp [clearFrame]⟩, fun e h => h,
    fun _ => ⟨rfl, rfl, rfl, [], Nat.zero_le _, by simp [clearFrame]⟩⟩

/-- What the end of the node's own frame leaves of its link, `w` being the station that it makes the last sender. -/
theorem frameVoided_own (n : Node) (hw : tracksW n = true) (hs : n.link.sending = true) :
    frameVoided (cfg n).station n = failedEnd { n with link := { n.link with w := (cfg n).station } } true := by
  unfold frameVoided
  rw [if_pos hw, hs]
  simp

theorem frameCutShort_own (n : Node) (hw : tracksW n = true) (hs : n.link.sending = true) :
    frameCutShort n = failedEnd n true := by
  unfold frameCutShort
  rw [if_pos hw, hs]

/-- An attempt of a JOINED node with no DOWN queued that is not the third. -/
theorem attemptEnds_again (n : Node) (e : QEntry) (rest : List QEntry) (hj : n.st = .joined) (hq : n.link.queue = e :: rest)
    (hd : downQueued n = false) (ha : n.link.attempts < 2) :
    attemptEnds n = { n with link := { n.link with
      sending := false, stopped := false, ownRun := 0, attempts := n.link.attempts + 1 } } := by
  unfold attemptEnds
  dsimp only
  rw [hq]
  dsimp only
  rw [if_neg (by rw [hj]; rintro ⟨h, -⟩; cases h), if_neg (by rw [hd]; simp), if_pos (by omega)]

theorem attemptEnds_third (n : Node) (e : QEntry) (rest : List QEntry) (hj : n.st = .joined) (hq : n.link.queue = e :: rest)
    (hd : downQueued n = false) (ha : n.link.attempts = 2) :
    attemptEnds n = dropTelegram { n with link := { n.link with sending := false, stopped := false, ownRun := 0 } } e := by
  unfold attemptEnds
  dsimp only
  rw [hq]
  dsimp only
  rw [if_neg (by rw [hj]; rintro ⟨h, -⟩; cases h), if_neg (by rw [hd]; simp), if_neg (by omega)]

theorem ownAttempt_again (n : Node) (e : QEntry) (rest : List QEntry) (hj : n.st = .joined) (hq : n.link.queue = e :: rest)
    (hd : downQueued n = false) (ha : n.link.attempts < 2) :
    (failedEnd n true).link.attempts = n.link.attempts + 1 ∧ (failedEnd n true).link.queue.head? = some e ∧
    (failedEnd n true).link.w = n.link.w ∧ (failedEnd n true).link.ownRun = 0 ∧
    (failedEnd n true).link.seenVoids = n.link.seenVoids + 1 ∧ (failedEnd n true).link.sending = false := by
  have hend := failedEnd_own n _ (attemptEnds_again (failedNode n) e rest hj hq hd ha) (by
    show n.st ≠ .listening
    rw [hj]
    decide)
  rw [hend]
  have ho := holdSettle_offers (clearFrame { failedNode n with link := { (failedNode n).link with
    sending := false, stopped := false, ownRun := 0, attempts := (failedNode n).link.attempts + 1 } })
  exact ⟨ho.attempts, ho.head e (by show n.link.queue.head? = _; rw [hq]; rfl), ho.w, ho.ownRun rfl, ho.seenVoids, ho.sending⟩

/-- The node whose telegram has left the queue and was counted as dropped. -/
def droppedNode (n : Node) : Node :=
  { n with link := { n.link with
      slot := none, heardEnd := true, silentMs := 0, seenVoids := n.link.seenVoids + 1, goodRun := 0, sending := false,
      stopped := false, ownRun := 0, queue := n.link.queue.drop 1, attempts := 0, dropped := n.link.dropped + 1 } }

theorem droppedNode_eq (n : Node) : countDropped (dequeue { failedNode n with link := { (failedNode n).link with
    sending := false, stopped := false, ownRun := 0 } }) = droppedNode n := by
  simp only [droppedNode, countDropped, dequeue, failedNode, badEnd, countSeen, hearEnd]

theorem dropTelegram_record (n : Node) (e : QEntry) (hd : isDown e.telegram = false) (hj : isJoin e.telegram = false)
    (hr : e.telegram.routine = false) : dropTelegram n e = offerDropped (raiseLinkFault (countDropped (dequeue n))) e := by
  simp [dropTelegram, hd, hj, hr]

theorem dropTelegram_routine (n : Node) (e : QEntry) (hd : isDown e.telegram = false) (hj : isJoin e.telegram = false)
    (hr : e.telegram.routine = true) : dropTelegram n e = countDropped (dequeue n) := by
  simp [dropTelegram, hd, hj, hr]

/-- The third ended attempt drops the telegram: what is left is `a`, and one offer of the Hold Unit. -/
theorem ownAttempt_third (n : Node) (e : QEntry) (rest : List QEntry) (hj : n.st = .joined) (hq : n.link.queue = e :: rest)
    (hd : downQueued n = false) (ha : n.link.attempts = 2) (hjoin : ∀ p, e.telegram ≠ .join p) :
    (e.telegram.routine = true → Offers 1 (failedEnd n true) (droppedNode n)) ∧
    (e.telegram.routine = false → Offers 2 (failedEnd n true) (raiseLinkFault (droppedNode n))) := by
  have hnj : isJoin e.telegram = false := by
    unfold isJoin
    split
    · next p hp => exact absurd hp (hjoin p)
    · rfl
  have hnd : isDown e.telegram = false := by
    unfold downQueued at hd
    rw [hq, List.any_cons, Bool.or_eq_false_iff] at hd
    exact hd.1
  have hthird := attemptEnds_third (failedNode n) e rest hj hq hd ha
  have hst : (droppedNode n).st = n.st := by unfold droppedNode; rfl
  refine ⟨fun hr => ?_, fun hr => ?_⟩
  · rw [dropTelegram_routine _ e hnd hnj hr, droppedNode_eq] at hthird
    rw [failedEnd_own n (droppedNode n) hthird (by rw [hst, hj]; decide)]
    exact (holdSettle_offers _).before (clearFrame_offers _)
  · rw [dropTelegram_record _ e hnd hnj hr, droppedNode_eq] at hthird
    have hoff := offerDropped_offers (raiseLinkFault (droppedNode n)) e
    have hst' : (offerDropped (raiseLinkFault (droppedNode n)) e).st = n.st := hoff.st.trans hst
    rw [failedEnd_own n _ hthird (by rw [hst', hj]; decide)]
    exact ((holdSettle_offers _).before (clearFrame_offers _)).trans hoff

/-- A count raised by one and by few more is another count. -/
theorem count_ne (x : Count32) (j : Nat) (h : j ≤ 2) : x + 1 + BitVec.ofNat 32 j ≠ x := by
  intro heq
  have hj : j = 0 ∨ j = 1 ∨ j = 2 := by omega
  rcases hj with rfl | rfl | rfl <;> bv_omega

/-- Settles O30: the attempts below the third by `attemptEnds_again`, the third by the offers that follow the drop. -/
theorem attemptsEndAtTheThird : Obligations.AttemptsEndAtTheThird := by
  intro s e rest hj hs hq hd
  have hw : tracksW s.node = true := by simp [tracksW, hj]
  have hvoid := frameVoided_own s.node hw hs
  have hcut := frameCutShort_own s.node hw hs
  refine ⟨fun ha => ⟨after_meaning ?_, after_meaning ?_⟩, fun by_ hby ha hjoin hlen => ?_⟩
  · rw [meaning, hvoid]
    exact ownAttempt_again { s.node with link := { s.node.link with w := (cfg s.node).station } } e rest hj hq hd ha
  · rw [meaning, hcut]
    exact ownAttempt_again s.node e rest hj hq hd ha
  · have hocc : ∃ n : Node, occur by_ s.node = failedEnd n true ∧
        n = { s.node with link := { s.node.link with
          w := if by_ = .frameCutShort then s.node.link.w else (cfg s.node).station } } := by
      rcases hby with rfl | rfl
      · exact ⟨s.node, hcut, rfl⟩
      · exact ⟨_, hvoid, rfl⟩
    obtain ⟨n, hocc, hn⟩ := hocc
    have hnj : n.st = .joined := by rw [hn]; exact hj
    have hnq : n.link.queue = e :: rest := by rw [hn]; exact hq
    have hnd : downQueued n = false := by rw [hn]; exact hd
    have hna : n.link.attempts = 2 := by rw [hn]; exact ha
    have hdrop : (droppedNode n).link.dropped = s.node.link.dropped + 1 := by rw [hn]; rfl
    have hqueue : (droppedNode n).link.queue = rest := by
      show n.link.queue.drop 1 = rest
      rw [hnq]
      rfl
    have hcomp : (droppedNode n).link.completed = s.node.link.completed := by rw [hn]; rfl
    have hwn : (droppedNode n).link.w = if by_ = .frameCutShort then s.node.link.w else (cfg s.node).station := by
      rw [hn]
      rfl
    have hhit : ∀ (j : Nat) (h2 : j ≤ 2), (failedEnd n true).link.attempts = 0 →
        (failedEnd n true).link.dropped = s.node.link.dropped + 1 + BitVec.ofNat 32 j →
        (failedEnd n true).link.completed = s.node.link.completed → dropHit by_ s.node = true := by
      intro j h2 h0 hdr hc
      unfold dropHit
      dsimp only
      rw [hocc, hs, ha, h0, hc, hdr]
      simp only [decide_true, Bool.and_true, Bool.true_and, decide_eq_true_eq]
      exact count_ne _ j h2
    obtain ⟨hroutine, hrecord⟩ := ownAttempt_third n e rest hnj hnq hnd hna hjoin
    have hheads : ∀ (k : Nat) (m : Node), Offers k (failedEnd n true) m → m.link.queue = rest →
        ∀ q, (failedEnd n true).link.queue.head? = some q → rest.head? = some q ∨ rest = [] := by
      intro k m hm hmq q hq'
      cases hr : rest with
      | nil => exact Or.inr rfl
      | cons x xs =>
        have hx := hm.head x (by rw [hmq, hr]; rfl)
        rw [hx] at hq'
        exact Or.inl hq'
    refine ⟨fun hr => after_meaning ?_, fun hr => after_meaning ?_⟩
    · have ho := hroutine hr
      obtain ⟨d, -⟩ := ho.room (by rw [hqueue]; omega)
      rw [meaning, namedCase_pos (hhit 0 (by decide) ho.attempts (by rw [d, hdrop]; simp) (ho.completed.trans hcomp)), hocc]
      exact ⟨ho.attempts, d.trans hdrop, ho.w.trans hwn, hheads 1 _ ho hqueue⟩
    · have ho := hrecord hr
      obtain ⟨j, hj2, hdr⟩ := ho.dropped
      have hdr' : (failedEnd n true).link.dropped = s.node.link.dropped + 1 + BitVec.ofNat 32 j := by
        rw [hdr]
        exact congrArg (· + BitVec.ofNat 32 j) hdrop
      have hfault := ho.fault ⟨rfl, rfl⟩
      rw [meaning, namedCase_pos (hhit j hj2 ho.attempts hdr' (ho.completed.trans hcomp)), hocc]
      refine ⟨ho.attempts, hfault.1, hfault.2, ho.w.trans hwn, fun hl => ?_, hheads 2 _ ho hqueue⟩
      obtain ⟨d, -⟩ := ho.room (by
        show (droppedNode n).link.queue.length + 2 ≤ 16
        rw [hqueue]
        omega)
      exact d.trans hdrop

end Sys2Proof.Proofs
end

/-! PROOFS. The stuck line, the rejoin, the run of own completions and the timers of the link (R19, R22, R28 to R30, R33, R35). -/
section
namespace Sys2Proof.Proofs

open Sys2Proof.Machine Sys2Proof.Laws Sys2Proof.Claims

/-! ### The stuck line (R29) -/

theorem holdSettle_stuck (n : Node) : (holdSettle n).link.stuck = n.link.stuck := by
  have h := congrArg Link.stuck (holdSettle_linkRest n)
  exact h

/-- The settling of a node that differs from `s` in its link alone. -/
theorem holdSettle_link_eq (n : Node) (l : Link) :
    holdSettle { n with link := l } = { n with
      link := (holdSettle { n with link := l }).link, hold := (holdSettle { n with link := l }).hold,
      port := (holdSettle { n with link := l }).port } := by
  have h0 := holdSettle_eq { n with link := l }
  generalize holdSettle { n with link := l } = k at h0 ⊢
  rw [h0]

/-- The link of a node that takes the line as stuck. -/
def stuckLink (l : Link) : Link :=
  { l with stuck := true, slot := none, sending := false, stopped := false, linkFault := true, ownRun := 0 }

/-- What the settling leaves of a stuck link `l` with the queue, attempts and w of `n`. -/
theorem stuck_settled (n : Node) (l : Link) (hst : l.stuck = true) (hf : l.linkFault = true ∧ l.ownRun = 0)
    (hs : l.sending = false) (hw : l.w = n.link.w) (ha : l.attempts = n.link.attempts) (hq : l.queue = n.link.queue) :
    let t := holdSettle { n with link := l }
    t.link.stuck = true ∧ t.link.linkFault = true ∧ t.link.ownRun = 0 ∧ t.link.sending = false ∧ t.link.w = n.link.w ∧
    t.link.attempts = n.link.attempts ∧ (∀ e, n.link.queue.head? = some e → t.link.queue.head? = some e) ∧
    (n.link.queue.length < 16 → ∃ more, t.link.queue = n.link.queue ++ more) := by
  have ho := holdSettle_offers { n with link := l }
  have hstuck : (holdSettle { n with link := l }).link.stuck = true := (holdSettle_stuck _).trans hst
  obtain ⟨hfault, hrun⟩ := ho.fault hf
  refine ⟨hstuck, hfault, hrun, ho.sending.trans hs, ho.w.trans hw, ho.attempts.trans ha, fun e he => ho.head e ?_, fun hl => ?_⟩
  · show l.queue.head? = some e
    rw [hq]
    exact he
  · obtain ⟨-, -, -, more, -, hmore⟩ := ho.room (by
      show l.queue.length + 1 ≤ 16
      rw [hq]
      omega)
    refine ⟨more, hmore.trans ?_⟩
    show l.queue ++ more = _
    rw [hq]

theorem lineStuck_quiet (n : Node) (hw : tracksW n = true) (hs : n.link.stuck = false) :
    lineStuck false n = holdSettle { n with link := stuckLink n.link } := by
  unfold lineStuck
  exact if_pos ⟨hw, by rw [hs]; rfl⟩

/-- R29: a frame on a line that is stuck is treated as cut short. -/
def stuckFrameLink (l : Link) (mine : Bool) : Link :=
  { stuckLink l with heardEnd := true, silentMs := 0, seenVoids := l.seenVoids + 1, goodRun := 0, faulty := false, drove := false,
                     voidRun := if mine then l.voidRun else 0 }

theorem lineStuck_frame (n : Node) (hj : n.st = .joined) (hs : n.link.stuck = false)
    (hm : n.link.sending = true ∨ n.link.drove = false) :
    lineStuck true n = holdSettle { n with link := stuckFrameLink n.link n.link.sending } := by
  have hw : tracksW n = true := by simp [tracksW, hj]
  have hlisten : ∀ m : Node, m.st = .joined → listenEnd m = m := fun m h => if_neg (by rw [h]; simp)
  unfold lineStuck
  dsimp only
  rw [if_pos ⟨hw, by rw [hs]; rfl⟩, if_pos rfl]
  simp only [badEnd, countSeen, hearEnd, raiseLinkFault]
  congr 1
  by_cases hmine : n.link.sending = true
  · rw [if_pos hmine, hlisten _ ?_, hmine]
    · simp only [clearFrame, stuckFrameLink, stuckLink, if_true]
    · exact hj
  · have hmf : n.link.sending = false := by simpa using hmine
    have hdr : n.link.drove = false := hm.resolve_left hmine
    have hrun : ∀ m : Node, m.st = .joined → m.link.drove = false → muteVoiding (countVoidRun m) =
        { m with link := { m.link with voidRun := 0 } } := by
      intro m hmj hmd
      have ha : appliesFrames m = true := by simp [appliesFrames, hmj]
      have hc : countVoidRun m = { m with link := { m.link with voidRun := 0 } } := by
        unfold countVoidRun
        rw [if_pos ha, hmd]
        rfl
      rw [hc]
      exact if_neg (fun h => absurd (show 16 ≤ 0 from h.2) (by decide))
    rw [if_neg hmine, hrun _ ?_ ?_, hlisten _ ?_, hmf]
    · simp only [clearFrame, stuckFrameLink, stuckLink, Bool.false_eq_true, if_false]
    · exact hj
    · exact hj
    · exact hdr

theorem slotStart_stuck (n : Node) (h : n.link.stuck = true) : ∃ x, slotStart n = { n with link := { n.link with slot := x } } := by
  have hb : ∀ k, begins n k = false := by
    intro k
    unfold begins
    rw [h, Bool.not_true, Bool.and_false, Bool.false_and]
  cases hs : n.link.slot with
  | none => exact ⟨n.link.slot, slotStart_idle n (Or.inl hs)⟩
  | some k =>
    by_cases hw : tracksW n = true
    · refine ⟨some (if k < 31 then k + 1 else 1), ?_⟩
      rw [slotStart_counts n k hs hw, hb]
      rfl
    · exact ⟨n.link.slot, slotStart_idle n (Or.inr (by simpa using hw))⟩

/-- The link at the idle gap, before the queue is cleared. -/
def gapLink (l : Link) : Link :=
  { l with stuck := false, slot := if l.sending then none else some 0, silentMs := 0, clashMark := 0 }

theorem lineIdle_eq (n : Node) (hw : tracksW n = true) : lineIdle n = clearQueue { n with link := gapLink n.link } := if_pos hw

/-- Settles O32: the stuck link by its settling, the idle gap by the entries that stay. -/
theorem stuckLinesEndAtTheIdleGap : Obligations.StuckLinesEndAtTheIdleGap := by
  intro s hw
  have hstays : ∀ e, staysQueued { s.node with link := gapLink s.node.link } e = true ↔
      abandonedRoll s.node.roll.awaiting e = false ∧ (s.node.st = .benched → benchedKind e.telegram = true) :=
    fun e => staysQueued_iff { s.node with link := gapLink s.node.link } e
  have hgap : s.node.link.sending = false → gapLink s.node.link =
      { s.node.link with stuck := false, slot := some 0, silentMs := 0, clashMark := 0 } := by
    intro hs
    unfold gapLink
    simp only [hs, Bool.false_eq_true, if_false]
  refine ⟨fun hs => after_meaning ?_, fun hs hj hm => after_meaning ?_, fun hs => after_meaning ?_,
    fun hs hroll hb => gives_of_meaning (c := .lineIdle) ?_, fun hs => after_meaning ?_, fun hs => after_meaning ?_,
    abandonedRoll_iff⟩
  · rw [meaning, lineStuck_quiet s.node hw hs]
    obtain ⟨h1, h2, h3, h4, h5, h6, -, h8⟩ := stuck_settled s.node (stuckLink s.node.link) rfl ⟨rfl, rfl⟩ rfl rfl rfl rfl
    exact ⟨h1, h2, h3, h4, h5, h6, h8, holdSettle_link_eq s.node _⟩
  · rw [meaning, lineStuck_frame s.node hj hs hm]
    obtain ⟨h1, h2, h3, h4, h5, h6, h7, h8⟩ := stuck_settled s.node
      (stuckFrameLink s.node.link s.node.link.sending) rfl ⟨rfl, rfl⟩ rfl rfl rfl rfl
    refine ⟨h1, h2, h3, h4, h5, h6, (holdSettle_offers _).seenVoids, fun e rest hq => h7 e ?_, h8, holdSettle_link_eq s.node _⟩
    rw [hq]
    rfl
  · obtain ⟨x, hx⟩ := slotStart_stuck s.node hs
    rw [meaning, hx]
    exact ⟨rfl, rfl, rfl, hs⟩
  · show lineIdle s.node = _
    rw [lineIdle_eq s.node hw, clearQueue_stays _ fun e he => (hstays e).mpr ⟨hroll e he, fun h => hb h e he⟩, hgap hs]
  · obtain ⟨hframe, hlink⟩ := clearQueue_idle { s.node with link := gapLink s.node.link } hs
    rw [meaning, lineIdle_eq s.node hw]
    have hslot : (gapLink s.node.link).slot = some 0 := by rw [hgap hs]
    rw [hlink]
    refine ⟨rfl, hslot, rfl, rfl, fun e => ?_, ?_⟩
    · show e ∈ s.node.link.queue.filter _ ↔ _
      rw [List.mem_filter, hstays]
    · rw [← hlink]
      exact hframe
  · rw [meaning, lineIdle_eq s.node hw, clearQueue_sending { s.node with link := gapLink s.node.link } hs]
    exact ⟨rfl, rfl, rfl, hs⟩

/-! ### The rejoin (R28) -/

theorem holdSettle_muted (n : Node) (h : n.st ≠ .joined) : holdSettle n = n ∨
    holdSettle n = { n with hold := { n.hold with seen := factorSet n } } := by
  have hw : holdWorks n = false := by simp [holdWorks, isJoined, h]
  unfold holdSettle
  split
  · exact Or.inl rfl
  · rw [if_pos (by rw [hw]; rfl)]
    exact Or.inr rfl

/-- Outside JOINED the Hold Unit takes the factor set alone. -/
theorem holdSettle_outside (n : Node) (h : n.st ≠ .joined) :
    ∃ x, holdSettle n = { n with hold := { n.hold with seen := x } } := by
  rcases holdSettle_muted n h with he | he
  · exact ⟨n.hold.seen, he⟩
  · exact ⟨_, he⟩

/-- The 64th good frame at a node that voiding has muted. -/
theorem completeFrame_rejoins (n : Node) (o : Origin) (t : Telegram) (hm : n.st = .muted) (hc : n.muteCause = some .voiding)
    (hg : n.link.goodRun = 63) (hf : n.link.faulty = false) (hs : n.link.sending = false) (ho : o.sender ≠ (cfg n).station) :
    completeFrame o t n = holdSettle (clearFrame (rejoinNode (hearEnd { n with link := { n.link with w := o.sender } }))) := by
  have hw : tracksW n = true := by simp [tracksW, hm]
  have hown : isOwnFrame n o t = false := by simp [isOwnFrame, hs]
  have ha : ∀ m : Node, m.st = .muted → appliesFrames m = false := fun m h => by simp [appliesFrames, h]
  have hother : ∀ m : Node, m.st = .muted → m.muteCause = some .voiding → m.link.goodRun = 63 → m.link.faulty = false →
      o.sender ≠ (cfg m).station → completeOther m o t = rejoinNode m := by
    intro m h1 h2 h3 h4 h5
    unfold completeOther countVoidRun countCompleted muteVoiding clashSecond goodFrame
    simp [ha m h1, h1, h2, h3, h4, h5]
  unfold completeFrame
  rw [if_pos hw, hown]
  dsimp only
  rw [if_neg (by rw [hm]; decide), hother _ ?_ ?_ ?_ ?_ ?_]
  · exact hm
  · exact hc
  · exact hg
  · exact hf
  · exact ho

/-- A rejoin from another node state shows at ATTN. -/
theorem rejoinNode_attention (n : Node) (h : n.st ≠ .listening) : (rejoinNode n).port.attention &&& attNode = attNode := by
  have hset : (enterListening (rejoinBlocks n)).port.attention &&& attNode = attNode := by
    have hp : (enterListening (rejoinBlocks n)).port = (setState (rejoinBlocks n) .listening).port := rfl
    rw [hp]
    unfold setState
    rw [if_neg (show ¬(rejoinBlocks n).st = .listening from h)]
    exact attend_cause _ attNode
  unfold rejoinNode
  dsimp only
  split
  · exact hset
  · exact (attend_attends _ attHold).cause attNode hset

theorem rejoinNode_refusals (n : Node) : (rejoinNode n).port.refusals = n.port.refusals := by
  have hset : (enterListening (rejoinBlocks n)).port.refusals = n.port.refusals := by
    have hp : (enterListening (rejoinBlocks n)).port = (setState (rejoinBlocks n) .listening).port := rfl
    rw [hp]
    unfold setState
    split <;> rfl
  unfold rejoinNode
  dsimp only
  split <;> exact hset

/-- The node after a rejoin, its port aside. -/
theorem rejoinNode_frame (n : Node) :
    rejoinNode n = { rejoinBlocks n with st := .listening, link := { (rejoinBlocks n).link with listen := some 20, heardEnd := false },
                                         port := (rejoinNode n).port } := by
  rw [rejoinNode_eq]
  unfold enterListening
  rw [setState_eq]

/-- Settles O33, by the values that `rejoinNode` leaves. -/
theorem sixtyFourGoodFramesRejoin : Obligations.SixtyFourGoodFramesRejoin := by
  intro s o t hm hc hg hf hs ho
  have hend := completeFrame_rejoins s.node o t hm hc hg hf hs ho
  have hatt := rejoinNode_attention (hearEnd { s.node with link := { s.node.link with w := o.sender } }) (by
    show s.node.st ≠ .listening
    rw [hm]
    decide)
  have href := rejoinNode_refusals (hearEnd { s.node with link := { s.node.link with w := o.sender } })
  have hframe := rejoinNode_frame (hearEnd { s.node with link := { s.node.link with w := o.sender } })
  generalize rejoinNode (hearEnd { s.node with link := { s.node.link with w := o.sender } }) = m at hend hatt href hframe
  have hst : (clearFrame m).st ≠ .joined := by
    show m.st ≠ .joined
    rw [hframe]
    show NodeState.listening ≠ .joined
    decide
  obtain ⟨x, hx⟩ := holdSettle_outside (clearFrame m) hst
  have hhit : rejoinHit (.completed o t) s.node = true := by
    unfold rejoinHit
    rw [hm]
    show (true && decide ((completeFrame o t s.node).st = .listening)) = true
    rw [hend, hx]
    show (true && decide (m.st = .listening)) = true
    rw [hframe]
    rfl
  refine after_meaning (c := .rejoin (.completed o t)) ?_
  rw [meaning, namedCase_pos hhit]
  show _ = _ ∧ _
  have hocc : occur (.completed o t) s.node = { clearFrame m with hold := { (clearFrame m).hold with seen := x } } :=
    hend.trans hx
  rw [hocc]
  have hport : m.port.refusals = s.node.port.refusals := href
  generalize m.port = p at hatt hport hframe
  subst hframe
  exact ⟨rfl, rfl, rfl, rfl, rfl, rfl, rfl, rfl, rfl, rfl, rfl, rfl, rfl, rfl, rfl, rfl, rfl, rfl, rfl, rfl, rfl, rfl, rfl, rfl,
    rfl, hport, rfl, rfl, rfl, rfl, rfl, rfl, rfl, rfl, rfl, rfl, rfl, rfl, rfl, rfl, rfl, rfl, hatt⟩

/-! ### The node's own frames (R26, R30) -/

/-- The link of a JOINED node whose own frame completes. -/
def ownLink (l : Link) (station : Nat) : Link :=
  { l with
    w := station, slot := none, heardEnd := true, silentMs := 0, queue := l.queue.drop 1, attempts := 0, sending := false,
    stopped := false, ownRun := min 16 (l.ownRun + 1), linkFault := l.linkFault && decide (min 16 (l.ownRun + 1) < 16),
    sendElapsed := some 0, refusedOffers := [], completed := l.completed + 1 }

/-- The node that hands its own completed telegram over to its blocks. -/
def ownNode (n : Node) (t : Telegram) : Node := { n with link := raiseNumbers (ownLink n.link (cfg n).station) t }

/-- Whether an offer was that of a regrade. -/
def isRegrade : OfferBy → Bool
  | .regrade _ => true
  | _ => false

theorem isOwnFrame_sent (s : State) (t : Telegram) (b : OfferBy) (h : Sends s t b) : isOwnFrame s.node (ownOrigin s) t = true := by
  obtain ⟨-, hs, -, hq⟩ := h
  unfold isOwnFrame
  rw [hs, hq]
  simp [ownOrigin]

/-- A telegram of the node's own, no JOIN and no DOWN, completes: it is applied and its offer ends. -/
theorem completeFrame_sent (s : State) (t : Telegram) (b : OfferBy) (h : Sends s t b) (hj : isJoin t = false)
    (hd : isDown t = false) :
    completeFrame (ownOrigin s) t s.node = holdSettle (clearFrame (offerCompleted
      (handOver (ownNode s.node t) (ownOrigin s) true (isRegrade b) t) { telegram := t, restate := false, offerBy := b })) := by
  have hown := isOwnFrame_sent s t b h
  obtain ⟨hst, hs, hr, hq⟩ := h
  have hw : tracksW s.node = true := by simp [tracksW, hst]
  obtain ⟨rest, hrest⟩ : ∃ rest, s.node.link.queue = { telegram := t, restate := false, offerBy := b } :: rest := by
    cases hl : s.node.link.queue with
    | nil => rw [hl] at hq; cases hq
    | cons x xs =>
      rw [hl] at hq
      cases hq
      exact ⟨xs, rfl⟩
  have hnode : countCompleted (ownCompletes (hearEnd { s.node with link := { s.node.link with w := (ownOrigin s).sender } })) =
      { s.node with link := ownLink s.node.link (cfg s.node).station } := by
    have ha : ∀ m : Node, m.st = .joined → countCompleted m =
        { m with link := { m.link with completed := m.link.completed + 1 } } := fun m hm => if_pos (by simp [appliesFrames, hm])
    rw [ha _ ?_]
    · simp only [ownCompletes, hearEnd, ownLink, ownOrigin]
      rfl
    · exact hst
  have happ : applyFrame { s.node with link := ownLink s.node.link (cfg s.node).station } (ownOrigin s) true (isRegrade b) t =
      handOver (ownNode s.node t) (ownOrigin s) true (isRegrade b) t := by
    have hp : peerFrame { s.node with link := ownLink s.node.link (cfg s.node).station } (ownOrigin s).sender t =
        { s.node with link := ownLink s.node.link (cfg s.node).station } := if_pos rfl
    unfold applyFrame
    rw [hp]
    rfl
  rw [completeFrame_own s.node (ownOrigin s) t _ rest hw (by rw [hst]; decide) hrest hown,
    completeOwn_plain (hearEnd { s.node with link := { s.node.link with w := (ownOrigin s).sender } }) _ t _
      (by simp [appliesFrames, hearEnd, hst]) hj hd hr, hnode]
  have hreg : (match b with | .regrade _ => true | _ => false) = isRegrade b := by cases b <;> rfl
  rw [← happ, ← hreg]
  rfl

/-- Settles O34, by the own PRESENT that completes and the offers behind it. -/
theorem sixteenOwnCompletionsEndLinkFault : Obligations.SixteenOwnCompletionsEndLinkFault := by
  intro s e rest hj hs hq ht hre hby hr hf hrun hlen
  have hsends : Sends s .present .plain := by
    refine ⟨hj, hs, hr, ?_⟩
    rw [hq]
    obtain ⟨t, r, b⟩ := e
    cases ht
    cases hre
    cases hby
    rfl
  have hend : completeFrame (ownOrigin s) .present s.node = holdSettle (clearFrame (ownNode s.node .present)) :=
    completeFrame_sent s .present .plain hsends rfl rfl
  have ho := (holdSettle_offers (clearFrame (ownNode s.node .present))).before (clearFrame_offers _)
  have hqueue : (ownNode s.node .present).link.queue = rest := by
    show s.node.link.queue.drop 1 = rest
    rw [hq]
    rfl
  have hfault : (ownNode s.node .present).link.linkFault = false := by
    show (s.node.link.linkFault && decide (min 16 (s.node.link.ownRun + 1) < 16)) = false
    rw [hrun]
    simp
  have hrun16 : (ownNode s.node .present).link.ownRun = 16 := by
    show min 16 (s.node.link.ownRun + 1) = 16
    rw [hrun]
    rfl
  obtain ⟨-, r2, r3, more, -, r4⟩ := ho.room (by rw [hqueue]; omega)
  have hhit : ownRunHit (.completed (ownOrigin s) .present) s.node = true := by
    unfold ownRunHit
    dsimp only
    rw [isOwnFrame_sent s .present .plain hsends, hf, hrun]
    simp [tracksW, hj]
  refine after_meaning (c := .ownCompletionRunLimit (.completed (ownOrigin s) .present)) ?_
  rw [meaning, namedCase_pos hhit]
  show (completeFrame (ownOrigin s) .present s.node).link.linkFault = _ ∧ _
  have hocc : occur (.completed (ownOrigin s) .present) s.node = holdSettle (clearFrame (ownNode s.node .present)) := hend
  rw [hocc, hend]
  refine ⟨r2.trans hfault, r3.trans hrun16, ho.sendElapsed, ho.attempts, ho.sending, ho.completed, ho.st.trans hj, more, ?_⟩
  rw [r4, hqueue]

/-! ### The send timer (R33) and the listen timer (R35) -/

theorem sendTimer_due (n : Node) (e : Nat) (he : n.link.sendElapsed = some e) (ha : appliesFrames n = true)
    (h : (cfg n).silence ≤ 2 * e) :
    sendTimer n = { if presentQueued n then n else offerPlain n .present with
      link := { (if presentQueued n then n else offerPlain n .present).link with sendElapsed := some 0 } } := by
  unfold sendTimer
  rw [he]
  exact if_pos ⟨ha, h⟩

theorem mayOffer_present (n : Node) (ha : appliesFrames n = true) (hd : downQueued n = false) : mayOffer n .present = true := by
  unfold appliesFrames at ha
  rw [Bool.or_eq_true, decide_eq_true_eq, decide_eq_true_eq] at ha
  unfold mayOffer
  rcases ha with h | h
  · rw [h]
    show (!downQueued n) = true
    rw [hd]
    rfl
  · rw [h]
    rfl

theorem sendTimerOffersPresent : Claims.SendTimerOffersPresent := by
  intro s e he ha hd
  refine ⟨fun hdue => ?_, fun hearly => gives_of_meaning (c := .sendTimer) ?_⟩
  · have hm : meaning .sendTimer s.node = _ := sendTimer_due s.node e he ha hdue
    have hmay := mayOffer_present s.node ha hd
    refine ⟨fun hp hl => gives_of_meaning (c := .sendTimer) ?_, fun hp hl => gives_of_meaning (c := .sendTimer) ?_,
      fun hp => gives_of_meaning (c := .sendTimer) ?_⟩
    · have ho : offerPlain s.node .present = { s.node with link := { s.node.link with
          queue := s.node.link.queue ++ [{ telegram := .present, restate := false, offerBy := .plain }] } } := by
        unfold offerPlain
        rw [enqueue_placed s.node .present false .plain hmay hl]
      rw [hm, hp, ho]
      rfl
    · have ho : offerPlain s.node .present =
          { s.node with link := { s.node.link with discarded := s.node.link.discarded + 1 } } := by
        unfold offerPlain enqueue
        dsimp only
        rw [if_neg (by rw [hmay]; decide), if_neg (Nat.not_lt.mpr hl)]
        exact congrArg Prod.fst (if_pos rfl)
      rw [hm, hp, ho]
      rfl
    · rw [hm, hp]
      rfl
  · show sendTimer s.node = s.node
    unfold sendTimer
    rw [he]
    exact if_neg (fun h => absurd h.2 (Nat.not_le.mpr hearly))

/-- The JOIN that a node offers. -/
def joinEntry (n : Node) : QEntry :=
  { telegram := .join { role := (cfg n).role, slot := (cfg n).colourSlot, cause := n.resetCause, signature := n.signature },
    restate := false, offerBy := .join }

/-- R35: a LISTENING node with an empty queue becomes JOINING with its JOIN queued. -/
theorem offerJoin_listening (n : Node) (h : n.st = .listening) (hq : n.link.queue = []) :
    offerJoin n = { n with st := .joining, link := { n.link with queue := [joinEntry n] },
                           port := { n.port with attention := n.port.attention ||| attNode } } := by
  have hset : setState n .joining =
      { n with st := .joining, port := { n.port with attention := n.port.attention ||| attNode } } := by
    unfold setState
    rw [if_neg (by rw [h]; decide)]
    rfl
  unfold offerJoin
  rw [hset]
  dsimp only
  rw [enqueue_placed _ _ _ _ rfl (by show n.link.queue.length < 16; rw [hq]; decide)]
  dsimp only
  rw [hq]
  rfl

theorem listeningEndsInAJoin : Claims.ListeningEndsInAJoin := by
  intro s hst
  refine ⟨fun hl hh hq => after_meaning ?_, fun hl hh => gives_of_meaning (c := .listenTimer) ?_,
    fun hl hh hq hs => after_meaning ?_⟩
  · have hm : meaning .listenTimer s.node = offerJoin { s.node with link := { s.node.link with listen := none } } := by
      show listenTimer s.node = _
      unfold listenTimer
      rw [if_pos ⟨hst, hl⟩]
      exact if_pos hh
    rw [hm, offerJoin_listening { s.node with link := { s.node.link with listen := none } } hst hq]
    exact ⟨rfl, rfl, rfl, or_and_cause _ _⟩
  · show listenTimer s.node = _
    unfold listenTimer
    rw [if_pos ⟨hst, hl⟩]
    exact if_neg (by rw [hh]; decide)
  · have hm : meaning .listenSilence s.node = offerJoin s.node :=
      if_pos ⟨hst, hl, by rw [hh]; rfl, hs⟩
    rw [hm, offerJoin_listening s.node hst hq]
    exact ⟨rfl, rfl, or_and_cause _ _⟩

/-- A frame end that a LISTENING node hears, before it lets the node offer its JOIN. -/
def HeardEnd (s : State) (m : Node) : Prop :=
  m.st = .listening ∧ m.image = s.node.image ∧ m.resetCause = s.node.resetCause ∧ m.signature = s.node.signature ∧
    m.link.heardEnd = true ∧ m.link.listen = s.node.link.listen ∧ m.link.queue = s.node.link.queue

theorem exec_frameOf (o : Origin) (t : Telegram) (s : State) : exec (frameOf o t) s = runNode (completeFrame o t) s := by
  cases t with
  | request k a => cases k <;> rfl
  | _ => rfl

theorem after_frameOf {o : Origin} {t : Telegram} {s : State} {p : Node → Prop} (h : p (completeFrame o t s.node)) :
    After (frameOf o t) s p := ⟨completeFrame o t s.node, exec_frameOf o t s, h⟩

/-- At a LISTENING node each frame end settles what the first frame end lets it do. -/
theorem listener_hears (s : State) (c : Instr) (hst : s.node.st = .listening) (hs : s.node.link.sending = false)
    (hc : c = .frameCutShort ∨ (∃ k, c = .frameVoided k) ∨ (∃ o t, o.sender ≠ (cfg s.node).station ∧ c = frameOf o t))
    (p : Node → Prop) (h : ∀ m, HeardEnd s m → p (holdSettle (clearFrame (listenEnd m)))) : After c s p := by
  have hw : tracksW s.node = true := by simp [tracksW, hst]
  have hfail : ∀ n : Node, n.st = .listening → failedEnd n false = holdSettle (clearFrame (listenEnd (failedNode n))) := by
    intro n hn
    have ha : ∀ m : Node, m.st = .listening → appliesFrames m = false := fun m hm => by simp [appliesFrames, hm]
    have hrun : ∀ m : Node, m.st = .listening → muteVoiding (countVoidRun m) = m := by
      intro m hm
      simp [countVoidRun, muteVoiding, ha m hm]
    show holdSettle (clearFrame (listenEnd (muteVoiding (countVoidRun (failedNode n))))) = _
    rw [hrun _ ?_]
    simp only [failedNode, badEnd, countSeen, hearEnd]
    exact hn
  have hheard : ∀ w, HeardEnd s (failedNode { s.node with link := { s.node.link with w := w } }) := by
    intro w
    simp only [HeardEnd, failedNode, badEnd, countSeen, hearEnd, hst, true_and]
  rcases hc with rfl | ⟨k, rfl⟩ | ⟨o, t, ho, rfl⟩
  · refine after_meaning ?_
    have hm : meaning .frameCutShort s.node = failedEnd s.node false := by
      show frameCutShort s.node = _
      unfold frameCutShort
      rw [if_pos hw, hs]
    rw [hm, hfail s.node hst]
    exact h _ (hheard s.node.link.w)
  · refine after_meaning ?_
    have hm : meaning (.frameVoided k) s.node = failedEnd { s.node with link := { s.node.link with w := k } } false := by
      show frameVoided k s.node = _
      unfold frameVoided
      rw [if_pos hw, hs]
      rfl
    rw [hm, hfail { s.node with link := { s.node.link with w := k } } hst]
    exact h _ (hheard k)
  · refine after_frameOf ?_
    have hown : isOwnFrame s.node o t = false := by simp [isOwnFrame, hs]
    have hm : completeFrame o t s.node =
        holdSettle (clearFrame (listenEnd (hearEnd { s.node with link := { s.node.link with w := o.sender } }))) := by
      unfold completeFrame
      rw [if_pos hw, hown]
      dsimp only
      rw [if_pos hst, completeOther_listening (hearEnd { s.node with link := { s.node.link with w := o.sender } }) o t hst ho]
    rw [hm]
    refine h _ ?_
    unfold HeardEnd hearEnd
    exact ⟨hst, rfl, rfl, rfl, rfl, rfl, rfl⟩

theorem firstFrameEndsLetAListenerJoin : Claims.FirstFrameEndsLetAListenerJoin := by
  intro s c hst hs hc
  refine ⟨fun hl hq => listener_hears s c hst hs hc _ fun m hm => ?_, fun k hl => listener_hears s c hst hs hc _ fun m hm => ?_⟩
  · obtain ⟨h1, h2, h3, h4, h5, h6, h7⟩ := hm
    have hjoin : listenEnd m = offerJoin m := if_pos ⟨h1, h6.trans hl⟩
    have hentry : joinEntry m = joinEntry s.node := by
      unfold joinEntry
      rw [cfg_of_image h2, h3, h4]
    rw [hjoin, offerJoin_listening m h1 (h7.trans hq), hentry]
    obtain ⟨x, hx⟩ := holdSettle_outside (clearFrame { m with
      st := .joining, link := { m.link with queue := [joinEntry s.node] },
      port := { m.port with attention := m.port.attention ||| attNode } }) (by
        show NodeState.joining ≠ .joined
        decide)
    rw [hx]
    exact ⟨rfl, rfl, h5, or_and_cause _ _⟩
  · obtain ⟨h1, h2, h3, h4, h5, h6, h7⟩ := hm
    have hstay : listenEnd m = m := by
      refine if_neg ?_
      rintro ⟨-, h⟩
      rw [h6, hl] at h
      cases h
    rw [hstay]
    obtain ⟨x, hx⟩ := holdSettle_outside (clearFrame m) (by
      show m.st ≠ .joined
      rw [h1]
      decide)
    rw [hx]
    exact ⟨h1, h7, h5, h6.trans hl⟩

/-- Settles O35: the send timer by its offer, the end of LISTENING by `offerJoin_listening`. -/
theorem sendAndListenTimers : Obligations.SendAndListenTimers :=
  ⟨sendTimerOffersPresent, listeningEndsInAJoin, firstFrameEndsLetAListenerJoin⟩

end Sys2Proof.Proofs
end

/-! PROOFS. Resets, the supply warning and the image load: what they make of every block. -/
section
namespace Sys2Proof.Proofs

open Sys2Proof.Machine Sys2Proof.Laws Sys2Proof.Claims

/-! ### The entry of a state -/

/-- R199: the entry of another state asserts ATTN. -/
theorem setState_attention (n : Node) (st : NodeState) (h : n.st ≠ st) :
    (setState n st).port.attention &&& attNode = attNode := by
  unfold setState
  rw [if_neg h]
  exact or_and_cause _ _

/-- R32: outside JOINED the entry of DOWN leaves the blocks as they stand and lets the line go. -/
theorem goDown_outside (n : Node) (h : n.st ≠ .joined) :
    goDown n = { n with
      st := .down, port := (setState n .down).port,
      link := { n.link with sending := false, stopped := false, drove := false, clashMark := 0 } } := by
  have hl : leaveTo n .down = setState n .down := by
    unfold leaveTo
    exact if_neg fun hj => h hj.1
  unfold goDown
  rw [hl, setState_eq]

/-! ### Resets -/

/-- R190: the rising RESETN ends the reset and, with no warning waiting, changes the pin alone. -/
theorem pinReset_rises (n : Node) (hlow : n.pins.resetLow = true) :
    pinReset false n = endReset { n with pins := { n.pins with resetLow := false } } := by
  simp [pinReset, hlow]

theorem pinReset_stays_high (n : Node) (hlow : n.pins.resetLow = false) : pinReset false n = n := by
  simp [pinReset, hlow]

/-- R32: a warning that waited for the end of the reset takes the node that is LOADING down. -/
theorem endReset_warned_loading (n : Node) (hw : n.pins.supwarn = true) (hst : n.st = .loading) : endReset n = goDown n := by
  unfold endReset
  rw [if_pos hw]
  unfold warnSupply
  rw [hst]

/-- Settles O50: each reset is `resetNode`; the rising RESETN by whether a warning waits. -/
theorem resetsReturnEveryBlock : Obligations.ResetsReturnEveryBlock := by
  unfold Obligations.ResetsReturnEveryBlock
  intro s
  refine ⟨fun _ hwarn => ?_, ?_, fun hlow hwarn => ?_, fun hlow hwarn hst => ?_, fun hlow => ?_⟩
  · exact gives_of_meaning (c := .powerReset) (powerReset_without_warning s.node hwarn)
  · exact gives_of_meaning (c := .pinReset true) (pinReset_low s.node)
  · exact gives_of_meaning (c := .pinReset false)
      ((pinReset_rises s.node hlow).trans (endReset_without_warning _ hwarn))
  · refine after_meaning ?_
    show (pinReset false s.node).st = .down
    have hj : s.node.st ≠ .joined := by
      rw [hst]
      decide
    rw [pinReset_rises s.node hlow, endReset_warned_loading _ ?_ ?_, goDown_outside _ ?_]
    · exact hj
    · exact hwarn
    · exact hst
  · exact gives_of_meaning (c := .pinReset false) (pinReset_stays_high s.node hlow)

/-! ### The supply warning -/

theorem placeDown_behind_head (q : List QEntry) :
    placeDown q = q.take 1 ++ [{ telegram := .down .supply, restate := false, offerBy := .plain }] ++ q.drop 1 := by
  cases q <;> rfl

/-- R32: the warning is taken where RESETN is high. -/
theorem supplyWarning_taken (n : Node) (hw : n.pins.supwarn = false) (hr : n.pins.resetLow = false) :
    supplyWarning n = warnSupply { n with pins := { n.pins with supwarn := true, supwarnQuiet := 0 } } := by
  simp [supplyWarning, hw, hr]

theorem warnSupply_joined (n : Node) (hst : n.st = .joined) (hd : downQueued n = false) (hl : n.link.queue.length < 16) :
    warnSupply n = { n with link := { n.link with queue := placeDown n.link.queue } } := by
  unfold warnSupply offerDown
  rw [hst]
  simp [hd, hl]

theorem warnSupply_outside (n : Node) (hj : n.st ≠ .joined) (hd : n.st ≠ .down) : warnSupply n = goDown n := by
  unfold warnSupply
  split
  · next h => exact absurd h hd
  · next h => exact absurd h hj
  · rfl

theorem warnSupply_down (n : Node) (hst : n.st = .down) : warnSupply n = n := by
  unfold warnSupply
  rw [hst]

theorem supplyWarningTakesTheNodeDown : Claims.SupplyWarningTakesTheNodeDown := by
  intro s hw hr down
  have htaken := supplyWarning_taken s.node hw hr
  refine ⟨fun hst hd hl => ?_, fun hj hdown => ?_, fun hst => ?_⟩
  · refine gives_of_meaning (c := .supplyWarning) (htaken.trans ?_)
    rw [warnSupply_joined _ ?_ ?_ ?_, placeDown_behind_head]
    · exact hst
    · exact hd
    · exact hl
  · refine after_meaning ?_
    have hm : meaning .supplyWarning s.node =
        goDown { s.node with pins := { s.node.pins with supwarn := true, supwarnQuiet := 0 } } :=
      htaken.trans (warnSupply_outside _ hj hdown)
    have hatt := setState_attention { s.node with pins := { s.node.pins with supwarn := true, supwarnQuiet := 0 } } .down hdown
    rw [hm, goDown_outside _ ?_]
    · exact ⟨rfl, rfl, rfl, hatt, rfl, rfl, rfl⟩
    · exact hj
  · refine gives_of_meaning (c := .supplyWarning) (htaken.trans ?_)
    exact warnSupply_down _ hst

theorem supplyRecoveryResetsTheNode : Claims.SupplyRecoveryResetsTheNode := by
  intro s
  refine ⟨gives_meaning .supwarnInactive s, fun hst hwarn hlow hquiet => ?_, fun hno => ?_⟩
  · exact gives_of_meaning (c := .supplyRecovery) (supplyRecovery_after_quiet s.node hst hwarn hquiet hlow)
  · refine gives_of_meaning (c := .supplyRecovery) (if_neg ?_)
    rintro ⟨hst, -, hquiet, -⟩
    rcases hno with hq | hs
    · omega
    · exact hs hst

/-- Settles O47: the warning by the state it finds, the recovery by its quiet time. -/
theorem supplyWarningAndRecovery : Obligations.SupplyWarningAndRecovery :=
  ⟨supplyWarningTakesTheNodeDown, supplyRecoveryResetsTheNode⟩

/-! ### The web blocks -/

/-- R7, R14, R18: the reset values of the Travel Unit, the Mark Reader and the Trigger Table. -/
def WebBlocksReset (n : Node) : Prop :=
  n.travel.remainder = 0 ∧ n.travel.position = 0 ∧ n.travel.debt = 0 ∧ n.travel.speed = 0 ∧
  n.travel.motion = .standstill ∧ n.travel.standstill = none ∧ n.travel.lastBoundary = none ∧
  n.travel.lastSpeed = none ∧ n.travel.webReversed = false ∧ n.travel.speedStep = false ∧
  n.marks.mark = none ∧ n.marks.history = [] ∧ n.marks.indexes = [] ∧ n.marks.window = none ∧ n.marks.span = none ∧
  n.marks.reads = [] ∧ n.marks.observed = none ∧ n.marks.stray = 0 ∧ n.trig.entries = [] ∧ n.trig.cut = none ∧
  pinCUT n = false

theorem webBlocksReset_resetNode (n : Node) (c : ResetCause) : WebBlocksReset (resetNode n c) :=
  ⟨rfl, rfl, rfl, rfl, rfl, rfl, rfl, rfl, rfl, rfl, rfl, rfl, rfl, rfl, rfl, rfl, rfl, rfl, rfl, rfl, rfl⟩

/-- R28: of the blocks at their rejoin values the entry of LISTENING and the record of a hold's end change none of the web. -/
theorem rejoinNode_web (n : Node) :
    (rejoinNode n).travel = (rejoinBlocks n).travel ∧ (rejoinNode n).marks = (rejoinBlocks n).marks ∧
    (rejoinNode n).trig = (rejoinBlocks n).trig ∧ (rejoinNode n).loop = (rejoinBlocks n).loop ∧
    (rejoinNode n).job = (rejoinBlocks n).job ∧ (rejoinNode n).roll = (rejoinBlocks n).roll ∧
    (rejoinNode n).nip = (rejoinBlocks n).nip := by
  rw [rejoinNode_eq]
  unfold enterListening
  rw [setState_eq]
  exact ⟨rfl, rfl, rfl, rfl, rfl, rfl, rfl⟩

/-- R189: an image with a fault leaves the node UNCONFIGURED. -/
theorem configurationLoadEnd_bad (im : Image) (n : Node) (f : ConfigFault) (hst : n.st = .loading)
    (hlow : n.pins.resetLow = false) (hf : imageFault im = some f) :
    configurationLoadEnd im n = setState { n with configFault := some f } .unconfigured := by
  simp [configurationLoadEnd, hst, hlow, hf]

/-- R35: a good image is in force, and the node listens. -/
theorem configurationLoadEnd_good (im : Image) (n : Node) (hst : n.st = .loading) (hlow : n.pins.resetLow = false)
    (hf : imageFault im = none) :
    configurationLoadEnd im n = enterListening { n with
      image := some im.fields, signature := (crc16 (bytesBits im.signatureBytes)).toNat } := by
  simp [configurationLoadEnd, hst, hlow, hf]

/-- With no image in force the node has no role that measures travel. -/
theorem encoderCount_without_image (n : Node) (a b : Bool) (h : n.image = none) :
    encoderCount a b n = { n with pins := { n.pins with encA := a, encB := b } } := by
  have hr : travelRole n = false := by simp [travelRole, holdRole, eyeRole, isRole, h]
  unfold encoderCount
  exact if_neg fun hn => by rw [hr] at hn; exact absurd hn.1 Bool.false_ne_true

/-- Settles O48: the resets by `resetNode`, the rejoin by what it keeps of the web, the bad image and the count without an image
by what they change. -/
theorem resetAndRejoinOfTheWebBlocks : Obligations.ResetAndRejoinOfTheWebBlocks := by
  unfold Obligations.ResetAndRejoinOfTheWebBlocks
  refine ⟨fun s hwarn => ?_, fun n => ?_, fun s im f hst hlow hf => after_meaning ?_, fun s a b hi => ?_⟩
  · intro isReset
    have hreset : ∀ n c, isReset (resetNode n c) := webBlocksReset_resetNode
    refine ⟨after_meaning ?_, after_meaning ?_, fun hlow hr => after_meaning ?_, fun hst hlow hquiet => after_meaning ?_⟩
    · show isReset (powerReset s.node)
      rw [powerReset_without_warning s.node hwarn]
      exact hreset _ _
    · exact hreset _ _
    · show isReset (pinReset false s.node)
      rw [pinReset_rises s.node hlow, endReset_without_warning _ ?_]
      · exact hr
      · exact hwarn
    · show isReset (supplyRecovery s.node)
      rw [supplyRecovery_after_quiet s.node hst hwarn hquiet hlow]
      exact hreset _ _
  · obtain ⟨ht, hm, hg, hl, hj, hr, hn⟩ := rejoinNode_web n
    rw [ht, hm, hg, hl, hj, hr, hn]
    exact ⟨rfl, rfl, rfl, rfl, rfl, rfl, rfl, rfl⟩
  · show (configurationLoadEnd im s.node).st = .unconfigured ∧ (configurationLoadEnd im s.node).travel = s.node.travel
    rw [configurationLoadEnd_bad im s.node f hst hlow hf]
    exact ⟨setState_st _ _, setState_travel _ _⟩
  · exact gives_of_meaning (c := .encoderCount a b) (encoderCount_without_image s.node a b hi)

/-! ### The image -/

theorem loadsConfigureTheNode : Claims.LoadsConfigureTheNode := by
  intro im s
  refine ⟨fun hst hlow => ⟨fun hf => after_meaning ?_, fun f hf => after_meaning ?_, fun hl => ?_, fun h1 h2 hc => ?_⟩,
    fun hst => ?_⟩
  · have hm : meaning (.configurationLoadEnd im) s.node = _ := configurationLoadEnd_good im s.node hst hlow hf
    rw [hm]
    have hatt := setState_attention { s.node with
      image := some im.fields, signature := (crc16 (bytesBits im.signatureBytes)).toNat } .listening (by
        show s.node.st ≠ .listening
        rw [hst]
        decide)
    unfold enterListening pinFAULT
    rw [setState_eq] at hatt ⊢
    exact ⟨rfl, rfl, rfl, rfl, rfl, rfl, hatt⟩
  · have hm : meaning (.configurationLoadEnd im) s.node = _ := configurationLoadEnd_bad im s.node f hst hlow hf
    rw [hm]
    have hatt := setState_attention { s.node with configFault := some f } .unconfigured (by
        show s.node.st ≠ .unconfigured
        rw [hst]
        decide)
    unfold pinFAULT
    rw [setState_eq] at hatt ⊢
    exact ⟨rfl, rfl, rfl, rfl, hatt⟩
  · have hr : inRangeN 16 4096 (imageLength im) = false := by
      simp only [inRangeN, Bool.and_eq_false_iff, decide_eq_false_iff_not]
      omega
    simp [imageFault, hr]
  · simp [imageFault, inRangeN, h1, h2, hc]
  · exact gives_of_meaning (c := .configurationLoadEnd im) (if_neg fun h => hst h.1)

/-! ### The fields of an image -/

theorem noDuplicate_iff (l : List Nat) : noDuplicate l = true ↔ l.Nodup := by
  induction l with
  | nil => exact ⟨fun _ => List.nodup_nil, fun _ => rfl⟩
  | cons x xs ih => simp [noDuplicate, ih]

theorem inRangeN_iff (lo hi x : Nat) : inRangeN lo hi x = true ↔ lo ≤ x ∧ x ≤ hi := by simp [inRangeN]

theorem inRangeZ_iff (lo hi x : Int) : inRangeZ lo hi x = true ↔ lo ≤ x ∧ x ≤ hi := by simp [inRangeZ]

/-- R189: a good image passes the checks of the node, of the pattern table and of its role, and its role code is one of the
table's. -/
theorem fieldsGood_parts {im : Image} (h : fieldsGood im = true) :
    nodeFieldsGood im.fields = true ∧ patternTableGood im.fields = true ∧ roleFieldsGood im.fields = true ∧
    CodedField.role ∉ im.undefinedCodes := by
  simp only [fieldsGood, Bool.and_eq_true, List.all_eq_true] at h
  obtain ⟨⟨⟨hn, hp⟩, hr⟩, hu⟩ := h
  refine ⟨hn, hp, hr, fun hm => ?_⟩
  have hrole : CodedField.role ∈ checkedCodes im.fields.role := by
    cases im.fields.role <;> simp [checkedCodes]
  have hc := hu .role hrole
  simp [hm] at hc

/-- Table 56. -/
theorem nodeFields_of_good {c : Config} (h : nodeFieldsGood c = true) :
    (1 ≤ c.station ∧ c.station ≤ 31) ∧ slotOfRole c.role c.colourSlot = true ∧ 100 ≤ c.silence ∧ c.silence ≤ 2000 := by
  simp only [nodeFieldsGood, Bool.and_eq_true, inRangeN_iff] at h
  obtain ⟨⟨hs, hc⟩, hw⟩ := h
  exact ⟨hs, hc, hw⟩

theorem slotOfRole_false (r : Role) (k : Nat)
    (h : (r = .print ∧ (k = 0 ∨ 7 < k)) ∨ (r = .emboss ∧ k ≠ 8) ∨ (r ≠ .print ∧ r ≠ .emboss ∧ k ≠ 0)) :
    slotOfRole r k = false := by
  rcases h with ⟨rfl, h⟩ | ⟨rfl, h⟩ | ⟨hp, he, h⟩
  · simp only [slotOfRole, inRangeN, Bool.and_eq_false_iff, decide_eq_false_iff_not]
    omega
  · simpa [slotOfRole] using h
  · cases r <;> simp_all [slotOfRole]

/-- Table 24: the limits of a pattern. -/
theorem patternFields_of_good {p : Pattern} (h : patternGood p = true) :
    (1 ≤ p.code ∧ p.code ≤ 255) ∧ (2500 ≤ p.nominal ∧ p.nominal ≤ 16000) ∧ 1250 ≤ p.windowMin ∧ p.windowMax ≤ 65535 ∧
    p.windowMin ≤ p.nominal ∧ p.nominal ≤ p.windowMax ∧ (1 ≤ p.colourCount ∧ p.colourCount ≤ 8) ∧
    (-8000 ≤ p.cutOffset ∧ p.cutOffset ≤ 8000) ∧ 10000 ≤ p.minRoll ∧ p.minRoll ≤ 1000000 := by
  simp only [patternGood, Bool.and_eq_true, inRangeN_iff, inRangeZ_iff, decide_eq_true_eq] at h
  omega

theorem roleFields_of_good_colour {c : Config} (hr : c.role = .print ∨ c.role = .emboss) (h : roleFieldsGood c = true) :
    loopFieldsGood c = true ∧ holdFieldsGood c = true := by
  rcases hr with hr | hr <;> simp only [roleFieldsGood, hr, Bool.and_eq_true] at h
  · exact h
  · exact ⟨h.1.1, h.2⟩

/-- Every role but LABEL checks the quiet count. -/
theorem holdFields_of_good {c : Config} (hr : c.role ≠ .label) (h : roleFieldsGood c = true) : holdFieldsGood c = true := by
  unfold roleFieldsGood at h
  split at h
  case h_6 he => exact absurd he hr
  case h_1 => exact h
  all_goals
    simp only [Bool.and_eq_true] at h
    exact h.2

theorem fieldsOutsideTheirRangesAreFaults : Claims.FieldsOutsideTheirRangesAreFaults := by
  intro im
  dsimp only
  have hfault : ∀ P : Prop, (fieldsGood im = true → ¬P) → P → fieldsGood im = false := fun P h hp => by
    cases hg : fieldsGood im with
    | false => rfl
    | true => exact absurd hp (h hg)
  refine ⟨fun h1 h2 hc => ?_, hfault _ fun hg => ?_, hfault _ fun hg hs => ?_, hfault _ fun hg => ?_, fun p hp => hfault _ fun hg => ?_,
    fun hr => hfault _ fun hg => ?_, fun hr => hfault _ fun hg => ?_, fun hr => hfault _ fun hg => ?_,
    fun hr => hfault _ fun hg => ?_, fun hr => hfault _ fun hg => ?_, fun hr => hfault _ fun hg => ?_,
    hfault _ fun hg hm => ?_⟩
  · unfold imageFault
    cases hg : fieldsGood im <;> simp [inRangeN, h1, h2, hc]
  · have hn := nodeFields_of_good (fieldsGood_parts hg).1
    omega
  · have hn := (nodeFields_of_good (fieldsGood_parts hg).1).2.1
    rw [slotOfRole_false _ _ hs] at hn
    exact absurd hn Bool.false_ne_true
  · have hp := (fieldsGood_parts hg).2.1
    simp only [patternTableGood, Bool.and_eq_true, decide_eq_true_eq, noDuplicate_iff] at hp
    obtain ⟨⟨hlen, hnodup⟩, -⟩ := hp
    rintro (hlong | hdup)
    · exact absurd hlong (Nat.not_lt.2 hlen)
    · exact hdup hnodup
  · have htab := (fieldsGood_parts hg).2.1
    simp only [patternTableGood, Bool.and_eq_true, List.all_eq_true] at htab
    have hgood := patternFields_of_good (htab.2 p hp)
    omega
  · have hl := (roleFields_of_good_colour hr (fieldsGood_parts hg).2.2.1).1
    simp only [loopFieldsGood, Bool.and_eq_true, inRangeN_iff, decide_eq_true_eq] at hl
    omega
  · have hl := (fieldsGood_parts hg).2.2.1
    simp only [roleFieldsGood, show im.fields.role = .emboss from hr, nipFieldsGood, Bool.and_eq_true, inRangeN_iff] at hl
    omega
  · have hl := (fieldsGood_parts hg).2.2.1
    simp only [roleFieldsGood, show im.fields.role = .shade from hr, shadeFieldsGood, Bool.and_eq_true, inRangeN_iff] at hl
    omega
  · have hl := (fieldsGood_parts hg).2.2.1
    simp only [roleFieldsGood, show im.fields.role = .rewind from hr, rollFieldsGood, Bool.and_eq_true, inRangeN_iff] at hl
    omega
  · have hl := holdFields_of_good hr (fieldsGood_parts hg).2.2.1
    simp only [holdFieldsGood, inRangeN_iff] at hl
    omega
  · have hl := (fieldsGood_parts hg).2.2.1
    simp only [roleFieldsGood, show im.fields.role = .label from hr, labelFieldsGood, inRangeN_iff] at hl
    omega
  · exact (fieldsGood_parts hg).2.2.2 hm

/-- Settles O51: the load by the image's fault, the faults by what a good image passes. -/
theorem configurationLoadEndConfigures : Obligations.ConfigurationLoadEndConfigures :=
  ⟨loadsConfigureTheNode, fieldsOutsideTheirRangesAreFaults⟩

end Sys2Proof.Proofs
end

/-! PROOFS. The station port: the answers to reads and unknown commands, the bytes of a transaction, and the request slot. -/
section
namespace Sys2Proof.Proofs

open Sys2Proof.Machine Sys2Proof.Laws Sys2Proof.Claims

/-! ### Answers -/

theorem fillFrom_length (i : Nat) (c : List ViewByte) : (fillFrom i c).length = c.length := by
  induction c generalizing i with
  | nil => rfl
  | cons x xs ih => cases x <;> exact congrArg (· + 1) (ih (i + 1))

/-- R196: a byte that the content states is shifted out as it stands. -/
theorem fillFrom_stated (i k : Nat) (l : List ViewByte) (b : Byte) (h : l[k]? = some (some b)) : (fillFrom i l)[k]? = some b := by
  induction l generalizing i k with
  | nil => simp at h
  | cons x xs ih =>
    cases k with
    | zero =>
      obtain rfl : x = some b := by simpa using h
      rfl
    | succ k =>
      have hk := ih (i + 1) k (by simpa using h)
      cases x <;> simpa [fillFrom] using hk

theorem answers_of_out {m : Node} (n : Node) (st : Nat) (c : List ViewByte) (h : m.port.out = (answer n st c).port.out) :
    Answers m st c := by
  rw [answer_out] at h
  refine ⟨?_, ?_, fun i b hb => ?_⟩
  · rw [h]
    simp [be2, fillFrom_length]
  · rw [h]
    rfl
  · rw [h]
    exact fillFrom_stated n.freeIndex i c b hb

theorem answer_answers (n : Node) (st : Nat) (c : List ViewByte) : Answers (answer n st c) st c := answers_of_out n st c rfl

theorem answer_only (s : State) (st : Nat) (c : List ViewByte) : OnlyTheAnswer s (answer s.node st c) := rfl

/-- A command that shifts out an answer and does nothing else. -/
theorem after_answer {c : Instr} {s : State} {st : Nat} {content : List ViewByte}
    (h : meaning c s.node = answer s.node st content) :
    After c s fun n => Answers n st content ∧ OnlyTheAnswer s n := by
  refine after_meaning ?_
  rw [h]
  exact ⟨answer_answers _ _ _, answer_only _ _ _⟩

/-! ### The lengths of the views -/

@[simp] theorem k1_length (x : Nat) : (k1 x).length = 1 := rfl
@[simp] theorem k2_length (x : Nat) : (k2 x).length = 2 := rfl
@[simp] theorem k3_length (x : Nat) : (k3 x).length = 3 := rfl
@[simp] theorem k4_length (x : Nat) : (k4 x).length = 4 := rfl
@[simp] theorem kSigned2_length (z : Int) : (kSigned2 z).length = 2 := rfl
@[simp] theorem errorBytes_length (e : Option Int) : (errorBytes e).length = 2 := rfl
@[simp] theorem openBytes_length (k : Nat) : (openBytes k).length = k := List.length_replicate

/-- An optional item takes its bytes whether it is there or not. -/
theorem optBytes_length {α : Type} (k : Nat) (f : α → List ViewByte) (x : Option α) (h : ∀ a, (f a).length = k) :
    (optBytes k f x).length = k := by
  cases x with
  | none => exact openBytes_length k
  | some a => exact h a

@[simp] theorem answerBytes_length (a : JobAnswer) : (answerBytes a).length = 3 := by
  cases a <;> rfl

theorem viewNode_length (n : Node) : (viewNode n).length = 46 := by
  have hr := optBytes_length 3 (fun (c : Config) => k1 c.role.code ++ k1 c.station ++ k1 c.colourSlot) n.image fun _ => rfl
  have hk := optBytes_length 1 (fun (k : RequestKind) => k1 k.code) n.port.kind fun _ => rfl
  have ha := optBytes_length 1 k1 n.port.arg fun _ => rfl
  have h1 : (nodeStateBytes n).length = 14 := by simp only [nodeStateBytes, List.length_append, hr, hk, ha, k1_length, answerBytes_length]
  have h2 : (nodeTrackBytes n).length = 25 := by simp [nodeTrackBytes]
  have h3 : (nodeLabelBytes n).length = 7 := by simp [nodeLabelBytes]
  unfold viewNode
  rw [List.length_append, List.length_append, h1, h2, h3]

theorem viewCounters_length (n : Node) : (viewCounters n).length = 64 := rfl

/-! ### Reads -/

/-- Settles O54: the answer by `answer_answers`, with the attention causes emptied behind it. -/
theorem nodeReadEmptiesAttention : Obligations.NodeReadEmptiesAttention := by
  unfold Obligations.NodeReadEmptiesAttention
  exact fun s => after_meaning ⟨answers_of_out s.node 0 (viewNode s.node) rfl, viewNode_length s.node, rfl, rfl, rfl⟩

theorem readView_ready (view : Node → List ViewByte) (n : Node) (h : notReady n = false) :
    readView view n = answer n 0 (view n) := by
  simp [readView, h]

theorem readView_notReady (view : Node → List ViewByte) (n : Node) (h : notReady n = true) : readView view n = answer n 4 [] := by
  simp [readView, h]

theorem viewReadsAnswerTheSnapshot : Claims.ViewReadsAnswerTheSnapshot := by
  intro s
  refine ⟨fun h => ⟨?_, ?_, ?_, ?_, ?_, ?_, fun x r hx => ?_, fun x hx => ?_⟩, fun h => ⟨fun c hc => ?_, fun x => ?_⟩⟩
  · exact after_answer (c := .readPeers) (readView_ready _ _ h)
  · exact after_answer (c := .readRolls) (readView_ready _ _ h)
  · exact after_answer (c := .readBatches) (readView_ready _ _ h)
  · exact after_answer (c := .readHolds) (readView_ready _ _ h)
  · exact after_answer (c := .readJob) (readView_ready _ _ h)
  · obtain ⟨n, hg, ha, ho⟩ := after_answer (c := .readCounters) (readView_ready viewCounters s.node h)
    exact ⟨n, hg, ha, viewCounters_length _, ho⟩
  · refine after_answer (c := .readTrack x) ?_
    show readTrackView x s.node = _
    simp [readTrackView, h, hx]
  · refine after_answer (c := .readTrack x) ?_
    show readTrackView x s.node = _
    simp [readTrackView, h, hx]
  · simp only [List.mem_cons, List.not_mem_nil, or_false] at hc
    rcases hc with rfl | rfl | rfl | rfl | rfl | rfl <;> exact after_answer (readView_notReady _ _ h)
  · refine after_answer (c := .readTrack x) ?_
    show readTrackView x s.node = _
    simp [readTrackView, h]

theorem unknownCommandsAreAnswered : Claims.UnknownCommandsAreAnswered := by
  intro s
  refine ⟨fun code hwf => after_answer ?_, fun kind arg _ => after_answer ?_⟩
  · simp only [Instr.wf, Bool.and_eq_true, Bool.not_eq_true'] at hwf
    show unknownCommandByte code s.node = _
    unfold unknownCommandByte
    rw [hwf.2]
    rfl
  · show placeInvalid s.node = _
    unfold placeInvalid
    split <;> rfl

/-! ### The bytes of a transaction -/

theorem beValue_three (a b d : Byte) : beValue [a, b, d] = 65536 * a.toNat + 256 * b.toNat + d.toNat := by
  simp [beValue]
  omega

/-- R198: request kinds from 5 on lie outside Table 16. -/
theorem placeCommand_outside (k a : Byte) (h : 5 ≤ k.toNat) : placeCommand k a = .placeInvalidRequestKind k.toNat a.toNat := by
  unfold placeCommand
  split
  case h_6 => rfl
  all_goals omega

theorem plainCommand_outside (k : Byte) (h : ∀ x ∈ [1, 2, 4, 5, 6, 7, 8], k.toNat ≠ x) :
    plainCommand k = .unknownCommand k.toNat := by
  unfold plainCommand
  split
  case h_8 => rfl
  all_goals
    next he => exact absurd he (h _ (by decide))

theorem hostCommand_unknown (k : Byte) (more : List Byte) (h : k ∉ ([1, 2, 3, 4, 5, 6, 7, 8, 16] : List Byte)) :
    hostCommand (k :: more) = some (.unknownCommand k.toNat) := by
  have hne : ∀ x : Byte, x ∈ ([1, 2, 3, 4, 5, 6, 7, 8, 16] : List Byte) → k.toNat ≠ x.toNat := fun x hx he =>
    h (BitVec.eq_of_toNat_eq he ▸ hx)
  have h3 : k.toNat ≠ 3 := hne 3 (by decide)
  have h16 : k.toNat ≠ 16 := hne 16 (by decide)
  unfold hostCommand
  dsimp only
  rw [if_neg h3, if_neg h16, plainCommand_outside]
  intro x hx
  simp only [List.mem_cons, List.not_mem_nil, or_false] at hx
  rcases hx with rfl | rfl | rfl | rfl | rfl | rfl | rfl
  · exact hne 1 (by decide)
  · exact hne 2 (by decide)
  · exact hne 4 (by decide)
  · exact hne 5 (by decide)
  · exact hne 6 (by decide)
  · exact hne 7 (by decide)
  · exact hne 8 (by decide)

/-- R196: eight bits of SPDI are the byte whose bits they are. -/
theorem hostBits_byte (b : Byte) : hostBits ((List.range 8).map fun k => b.getLsbD (7 - k)) = hostCommand [b] := by
  have hbits : ((List.range 8).map fun k => b.getLsbD (7 - k)) = bytesBits [b] ++ [] := rfl
  have hlen : (bytesBits [b] ++ []).length / 8 = [b].length := by simp [bytesBits, bitsOf_length]
  unfold hostBits
  rw [hbits, hlen, bytesOfBits_bytesBits]

theorem transactionsSpellCommands : Claims.TransactionsSpellCommands := by
  refine ⟨fun more => ⟨rfl, rfl, rfl, rfl, rfl, rfl, rfl, fun a b d => ⟨?_, rfl⟩, fun a => ⟨rfl, rfl, rfl, rfl, rfl, rfl⟩,
    fun k a h => ?_, fun k h => hostCommand_unknown k more h⟩, fun n i => ⟨fun b h => ?_, fun h => ?_, rfl⟩, hostBits_byte⟩
  · rw [← beValue_three]
    rfl
  · rw [← placeCommand_outside k a h]
    rfl
  · simp [clockedByte, List.getD, h]
  · simp [clockedByte, List.getD, h]

/-- Settles O55: every read is one answer, a command byte spells the command that its arm of `hostCommand` names. -/
theorem readsAndUnknownCommands : Obligations.ReadsAndUnknownCommands :=
  ⟨viewReadsAnswerTheSnapshot, unknownCommandsAreAnswered, transactionsSpellCommands⟩

/-! ### Placements -/

theorem meaning_placement (kind : RequestKind) (arg : Nat) : meaning (placement kind arg) = placeRequest kind arg := by
  cases kind <;> rfl

theorem requestValid_outside (kind : RequestKind) (arg : Nat) (hk : kind = .holdOn ∨ kind = .clearHold)
    (ha : arg = 0 ∨ 31 < arg) : requestValid kind arg = false := by
  have hr : inRangeN 1 31 arg = false := by
    simp only [inRangeN, Bool.and_eq_false_iff, decide_eq_false_iff_not]
    omega
  rcases hk with rfl | rfl <;> exact hr

theorem requestValid_inside (kind : RequestKind) (arg : Nat)
    (h : (kind = .holdOn ∨ kind = .clearHold) → 1 ≤ arg ∧ arg ≤ 31) : requestValid kind arg = true := by
  cases kind
  case holdOn => exact (inRangeN_iff _ _ _).2 (h (Or.inl rfl))
  case clearHold => exact (inRangeN_iff _ _ _).2 (h (Or.inr rfl))
  all_goals rfl

theorem placeRequest_accepted (kind : RequestKind) (arg : Nat) (n : Node) (hr : notReady n = false)
    (hv : requestValid kind arg = true) (hs : n.port.slot ≠ .pending) :
    placeRequest kind arg n = holdSettle (answer (acceptRequest n kind arg) 1 []) := by
  simp [placeRequest, hr, hv, hs]

/-- R198: the slot of an accepted request. -/
def acceptedPort (p : Port) (kind : RequestKind) (arg : Nat) : Port :=
  { p with slot := .pending, kind := some kind, arg := some arg, answer := .none }

def requestEntry (kind : RequestKind) (arg : Nat) : QEntry :=
  { telegram := .request kind arg, restate := false, offerBy := .request }

/-- Table 13: a JOINED node with no DOWN queued takes every offer. -/
theorem mayOffer_joined (n : Node) (t : Telegram) (hst : n.st = .joined) (hd : downQueued n = false) : mayOffer n t = true := by
  unfold mayOffer
  rw [hst, hd]
  rfl

theorem acceptRequest_queued (n : Node) (kind : RequestKind) (arg : Nat) (hj : isJoined n = true) (hd : downQueued n = false)
    (hl : n.link.queue.length < 16) :
    acceptRequest n kind arg = { n with
      port := acceptedPort n.port kind arg, link := { n.link with queue := n.link.queue ++ [requestEntry kind arg] } } := by
  have hst : n.st = .joined := by simpa [isJoined] using hj
  unfold acceptRequest
  dsimp only
  rw [enqueue_placed _ _ _ _ ?_ ?_]
  · rfl
  · exact mayOffer_joined _ _ hst hd
  · exact hl

/-- Table 13: the states in which the node sends no REQUEST. -/
theorem mayOffer_request_silent (n : Node) (kind : RequestKind) (arg : Nat)
    (h : n.st = .listening ∨ n.st = .joining ∨ n.st = .muted ∨ n.st = .benched) : mayOffer n (.request kind arg) = false := by
  rcases h with h | h | h | h <;> simp [mayOffer, h, benchedKind]

theorem acceptRequest_silent (n : Node) (kind : RequestKind) (arg : Nat)
    (h : n.st = .listening ∨ n.st = .joining ∨ n.st = .muted ∨ n.st = .benched) :
    acceptRequest n kind arg = attend { n with port := { acceptedPort n.port kind arg with slot := .refused } } attRequest := by
  unfold acceptRequest
  dsimp only
  rw [enqueue_silent _ _ _ _ ?_]
  · rfl
  · exact mayOffer_request_silent _ kind arg h

theorem after_placement {s : State} {kind : RequestKind} {arg : Nat} {p : Node → Prop}
    (h : p (placeRequest kind arg s.node)) : After (placement kind arg) s p :=
  after_meaning (by rwa [meaning_placement])

theorem after_placement_answer {s : State} {kind : RequestKind} {arg st : Nat}
    (h : placeRequest kind arg s.node = answer s.node st []) :
    After (placement kind arg) s fun n => Answers n st [] ∧ OnlyTheAnswer s n :=
  after_answer (by rwa [meaning_placement])

/-- Settles O56: a placement by the first check that it fails, an accepted one by whether the node sends REQUEST. -/
theorem placementsFillTheRequestSlot : Obligations.PlacementsFillTheRequestSlot := by
  unfold Obligations.PlacementsFillTheRequestSlot
  intro s kind arg
  refine ⟨fun hn => after_placement_answer ?_, fun hr => ⟨fun hk ha => after_placement_answer ?_, fun hin => ?_⟩⟩
  · simp [placeRequest, hn]
  · simp [placeRequest, hr, requestValid_outside kind arg hk ha]
  · have hv := requestValid_inside kind arg hin
    refine ⟨fun hs => after_placement_answer ?_, fun hs hj hd hl => after_placement ?_, fun hs hst => after_placement ?_⟩
    · simp [placeRequest, hr, hv, hs]
    · rw [placeRequest_accepted kind arg s.node hr hv hs, acceptRequest_queued s.node kind arg hj hd hl]
      let m : Node := { s.node with
        port := acceptedPort s.node.port kind arg,
        link := { s.node.link with queue := s.node.link.queue ++ [requestEntry kind arg] } }
      obtain ⟨c, hc⟩ := holdSettle_attends (answer m 1 [])
      have hq : requestEntry kind arg ∈ (answer m 1 []).link.queue := List.mem_append_right _ (List.mem_singleton_self _)
      have hout : (holdSettle (answer m 1 [])).port.out = (answer m 1 []).port.out := by rw [hc]
      exact ⟨answers_of_out m 1 [] hout, congrArg Port.slot hc, congrArg Port.kind hc, congrArg Port.arg hc,
        congrArg Port.answer hc, _, holdSettle_keeps_entry _ _ hq rfl, rfl, rfl⟩
    · rw [placeRequest_accepted kind arg s.node hr hv hs, acceptRequest_silent s.node kind arg hst]
      have hnj : s.node.st ≠ .joined := by rcases hst with h | h | h | h <;> rw [h] <;> decide
      obtain ⟨x, hx⟩ := holdSettle_outside (answer (attend { s.node with
        port := { acceptedPort s.node.port kind arg with slot := .refused } } attRequest) 1 []) hnj
      rw [hx]
      exact ⟨answers_of_out (attend { s.node with
        port := { acceptedPort s.node.port kind arg with slot := .refused } } attRequest) 1 [] rfl, rfl, rfl, rfl, rfl,
        or_and_cause _ _⟩

end Sys2Proof.Proofs
end

/-! PROOFS. JOB TAKEN and JOB REFUSED (R67, R68, R72), and what every block reads of a heard frame. -/
section
namespace Sys2Proof.Proofs

open Sys2Proof.Machine Sys2Proof.Laws Sys2Proof.Claims

/-! ### The node behind a frame -/

theorem settled_attends (a : Node) : Attends a.port (holdSettle (clearFrame a)).port := holdSettle_attends (clearFrame a)

/-- The numbers heard are left by the Hold Unit. -/
theorem settled_newest (a : Node) :
    (holdSettle (clearFrame a)).link.newestRepeat = a.link.newestRepeat ∧
    (holdSettle (clearFrame a)).link.newestRoll = a.link.newestRoll ∧
    (holdSettle (clearFrame a)).link.newestBatch = a.link.newestBatch ∧
    (holdSettle (clearFrame a)).link.newestJob = a.link.newestJob := by
  obtain ⟨-, -, -, -, -, -, h1, h2, h3, h4⟩ := linkRest_fields (holdSettle_linkRest (clearFrame a))
  exact ⟨h1, h2, h3, h4⟩

theorem settled_sending (a : Node) : (holdSettle (clearFrame a)).link.sending = a.link.sending := by
  obtain ⟨-, -, -, h, -⟩ := linkRest_fields (holdSettle_linkRest (clearFrame a))
  exact h

theorem settled_completed (a : Node) : (holdSettle (clearFrame a)).link.completed = a.link.completed := by
  obtain ⟨-, h, -⟩ := linkRest_fields (holdSettle_linkRest (clearFrame a))
  exact h

/-! ### The roles that a heard frame leaves -/

/-- Hearing a frame other than a JOIN keeps every recorded role, and no entry becomes or ceases to be BENCHED. -/
theorem heard_role (o : Origin) (s : State) (t : Telegram) (hh : HearsAnother o s) (ht : ∀ p, t ≠ .join p) (k : Nat) :
    (peerAt (heardNode s.node o t) k).role = (peerAt s.node k).role ∧
    ((peerAt (heardNode s.node o t) k).state = .benched ↔ (peerAt s.node k).state = .benched) := by
  obtain ⟨-, -, -, hwf, hne, hlen⟩ := hh
  obtain ⟨h1, h31⟩ : 1 ≤ o.sender ∧ o.sender ≤ 31 := by simpa [wfStation] using hwf
  have hat : peerAt (heardNode s.node o t) k = peerAt (peerFrame s.node o.sender t) k := rfl
  rw [hat]
  by_cases hk : k = o.sender
  · subst hk
    obtain ⟨-, hrole, -, hstate⟩ := raiseHeard_hearPeer (peerAt s.node o.sender) (carriedRepeat t)
    rw [peerFrame_same s.node o.sender t h1 (by rw [hlen]; exact h31) hne ht, hrole, hstate]
    refine ⟨rfl, ?_⟩
    cases (peerAt s.node o.sender).state <;> simp
  · by_cases hk1 : 1 ≤ k
    · rw [peerFrame_other s.node o.sender k t h1 hk1 hk]
      exact ⟨rfl, Iff.rfl⟩
    · simp [peerAt, hk1]

theorem heldAs_heard (o : Origin) (s : State) (t : Telegram) (hh : HearsAnother o s) (ht : ∀ p, t ≠ .join p) (k : Nat) (r : Role) :
    heldAs (heardNode s.node o t) k r = heldAs s.node k r := by
  obtain ⟨hr, hb⟩ := heard_role o s t hh ht k
  unfold heldAs
  rw [hr]
  simp only [ne_eq, hb]

theorem heldAsSlot_heard (o : Origin) (s : State) (t : Telegram) (hh : HearsAnother o s) (ht : ∀ p, t ≠ .join p) (k : Nat)
    (r : Role) (c : Nat) : heldAsSlot (heardNode s.node o t) k r c = heldAsSlot s.node k r c := by
  obtain ⟨hr, hb⟩ := heard_role o s t hh ht k
  unfold heldAsSlot
  rw [hr]
  simp only [ne_eq, hb]

/-- R195: the last repeat heard behind a frame that carries the repeat `x`. -/
theorem heardRepeat_of (o : Origin) (s : State) (t : Telegram) (x : Nat) (n : Node) (hc : carriedRepeat t = some x)
    (hp : peerAt n o.sender = raiseHeard (hearPeer (peerAt s.node o.sender)) (carriedRepeat t)) :
    HeardRepeat o (lastHeard o s) x n := by
  unfold HeardRepeat
  rw [hp, hc]
  exact (raiseHeard_lastRepeat _).2 x

/-! ### The outcome of a NEW_JOB -/

theorem answerJob_elsewhere (n : Node) (r : Nat) (a : JobAnswer) (h : r ≠ (cfg n).station) : answerJob n r a = n := if_neg h

theorem answerJob_here (n : Node) (r : Nat) (a : JobAnswer) (h : r = (cfg n).station) :
    (answerJob n r a).port.answer = a ∧ (answerJob n r a).port.attention &&& attAnswer = attAnswer := by
  unfold answerJob
  rw [if_pos h]
  exact ⟨rfl, or_and_cause _ _⟩

theorem answerJob_eq (n : Node) (r : Nat) (a : JobAnswer) : answerJob n r a = { n with port := (answerJob n r a).port } := by
  unfold answerJob
  split <;> rfl

/-- R67: the job that a JOB TAKEN from `sender` gives. -/
def takenJob (n : Node) (sender : Nat) (p : JobPayload) : JobUnit :=
  if heldAs n sender .key = true ∧ newerThanGiven n p.number = true then
    (giveJob n { number := p.number, pattern := p.pattern, first := p.first }).job
  else n.job

theorem applyJobTaken_eq (n : Node) (sender : Nat) (p : JobPayload) :
    applyJobTaken n sender p = answerJob { n with job := takenJob n sender p } p.requester (.taken p.number) := by
  unfold applyJobTaken takenJob
  split <;> rfl

/-- The port behind a frame whose blocks answered the job. -/
theorem answered_here (n : Node) (r : Nat) (a : JobAnswer) (l : Link) (j : JobUnit) (h : r = (cfg n).station) :
    (holdSettle (clearFrame { answerJob n r a with link := l, job := j })).port.answer = a ∧
    (holdSettle (clearFrame { answerJob n r a with link := l, job := j })).port.attention &&& attAnswer = attAnswer := by
  obtain ⟨h1, h2⟩ := answerJob_here n r a h
  have hatt := settled_attends { answerJob n r a with link := l, job := j }
  refine ⟨?_, hatt.cause attAnswer h2⟩
  obtain ⟨c, hc⟩ := hatt
  rw [hc]
  exact h1

theorem answered_elsewhere (n : Node) (r : Nat) (a : JobAnswer) (h : r ≠ (cfg n).station) :
    (holdSettle (clearFrame (answerJob n r a))).port.answer = n.port.answer := by
  obtain ⟨c, hc⟩ := settled_attends (answerJob n r a)
  rw [hc, answerJob_elsewhere n r a h]

theorem outcomesReachTheJob : Claims.OutcomesReachTheJob := by
  intro o s p hh
  refine ⟨after_meaning ?_, after_meaning ?_⟩
  · have hno : ∀ q, Telegram.jobTaken p ≠ .join q := fun _ h => by cases h
    let m := heardNode s.node o (.jobTaken p)
    have hmdef : m = heardNode s.node o (.jobTaken p) := rfl
    let a := answerJob { m with job := takenJob m o.sender p } p.requester (.taken p.number)
    have ha : a = answerJob { m with job := takenJob m o.sender p } p.requester (.taken p.number) := rfl
    have he : a = { m with job := takenJob m o.sender p, port := a.port } := answerJob_eq _ _ _
    obtain ⟨hm, hheard, -⟩ := hears o s (.jobTaken p) hh hno a (applyJobTaken_eq m o.sender p) (by rw [he]; rfl) (by rw [he]; rfl)
      (by rw [he]; rfl) (by rw [he]; rfl)
    obtain ⟨-, -, -, hnewest⟩ := settled_newest a
    have hk : heldAs m o.sender .key = heldAs s.node o.sender .key := heldAs_heard o s _ hh hno _ _
    have hj : (holdSettle (clearFrame a)).job = takenJob m o.sender p := by
      rw [holdSettle_job, he]
      rfl
    rw [meaning, hm]
    refine ⟨hheard, ?_, fun hkey hnew => ?_, fun hnot => ?_, fun hr => ?_, fun hr => ?_⟩
    · rw [hnewest, he]
      rfl
    · rw [hj]
      have hjob : takenJob m o.sender p = _ := if_pos ⟨hk.trans hkey, hnew⟩
      rw [hjob]
      exact ⟨rfl, rfl⟩
    · rw [hj]
      refine if_neg ?_
      rintro ⟨h1, h2⟩
      rcases hnot with h | h
      · rw [hk, h] at h1
        cases h1
      · have h2' : newerThanGiven s.node p.number = true := h2
        rw [h] at h2'
        cases h2'
    · exact answered_here { m with job := takenJob m o.sender p } p.requester (.taken p.number) a.link a.job hr
    · exact answered_elsewhere { m with job := takenJob m o.sender p } p.requester (.taken p.number) hr
  · have hno : ∀ q, Telegram.jobRefused p ≠ .join q := fun _ h => by cases h
    let m := heardNode s.node o (.jobRefused p)
    let a := answerJob m p.requester .refused
    have he : a = { m with port := a.port } := answerJob_eq _ _ _
    obtain ⟨hm, hheard, -⟩ := hears o s (.jobRefused p) hh hno a rfl (by rw [he]; rfl) (by rw [he]; rfl)
      (by rw [he]; rfl) (by rw [he]; rfl)
    obtain ⟨-, -, -, hnewest⟩ := settled_newest a
    rw [meaning, hm]
    refine ⟨hheard, ?_, ?_, fun hr => answered_here m p.requester .refused a.link a.job hr⟩
    · rw [holdSettle_job, he]
      rfl
    · rw [hnewest, he]
      rfl

/-- R70: with no request held the close of an offer takes none. -/
theorem takeHeld_none (n : Node) (h : n.job.held = []) : takeHeld n = { n with job := { n.job with held := [] } } := by
  unfold takeHeld
  rw [h]
  rfl

theorem ownJobTakenGivesTheJob : Claims.OwnJobTakenGivesTheJob := by
  intro s j station hsends _ hheld hkey hnew
  refine after_meaning ?_
  let p : JobPayload := { number := j.number, pattern := j.pattern, first := j.first, requester := station }
  let m := ownNode s.node (.jobTaken p)
  let b := answerJob { m with job := takenJob m (ownOrigin s).sender p } p.requester (.taken p.number)
  have he : b = { m with job := takenJob m (ownOrigin s).sender p, port := b.port } := answerJob_eq _ _ _
  have hjob : takenJob m (ownOrigin s).sender p = (giveJob m j).job := if_pos ⟨hkey, hnew⟩
  have hm : meaning (.jobTaken (ownOrigin s) p) s.node =
      holdSettle (clearFrame { b with job := { b.job with inOffer := none, held := [] } }) := by
    refine (completeFrame_sent s (.jobTaken p) .job hsends rfl rfl).trans ?_
    have hover : handOver m (ownOrigin s) true (isRegrade .job) (.jobTaken p) = b := applyJobTaken_eq m _ p
    rw [hover]
    refine congrArg (fun x => holdSettle (clearFrame x)) (takeHeld_none _ ?_)
    rw [he, hjob]
    exact hheld
  rw [hm]
  let a : Node := { b with job := { b.job with inOffer := none, held := [] } }
  have hadef : a = { b with job := { b.job with inOffer := none, held := [] } } := rfl
  obtain ⟨-, -, -, hnewest⟩ := settled_newest a
  have hbj : b.job = (giveJob m j).job := by
    rw [he]
    exact hjob
  have hbl : b.link = m.link := by rw [he]
  have haj : a.job = { (giveJob m j).job with inOffer := none, held := [] } := by rw [hadef, hbj]
  have hal : a.link = m.link := hbl
  refine ⟨?_, ?_, ?_, ?_, ?_, ?_, fun hst => answered_here { m with job := takenJob m (ownOrigin s).sender p } station
    (.taken j.number) a.link a.job hst⟩
  · rw [holdSettle_job]
    exact congrArg JobUnit.given haj
  · rw [holdSettle_job]
    exact congrArg JobUnit.inOffer haj
  · rw [holdSettle_job]
    have hcur := congrArg JobUnit.current haj
    exact hcur
  · rw [hnewest, hal]
    rfl
  · rw [settled_sending, hal]
    rfl
  · rw [settled_completed, hal]
    rfl

/-- Settles O39: another station's outcome by `applyJobTaken_eq`, the own one behind the offer that it ends. -/
theorem jobOutcomesAreApplied : Obligations.JobOutcomesAreApplied := ⟨outcomesReachTheJob, ownJobTakenGivesTheJob⟩

end Sys2Proof.Proofs
end

/-! PROOFS. REGISTER and SHADE of another station: the results in the records (R45, R46). -/
section
namespace Sys2Proof.Proofs

open Sys2Proof.Machine Sys2Proof.Laws Sys2Proof.Claims

/-! ### A REGISTER in the table -/

/-- The records with `f` applied to that of number `x`. -/
def mapRecord (l : List RepeatRecord) (x : Nat) (f : RepeatRecord → RepeatRecord) : List RepeatRecord :=
  l.map fun r => if r.number = x then f r else r

/-- R45: the sender is held with the role of the slot that the REGISTER carries. -/
def slotHeld (n : Node) (sender : Nat) (p : RegisterPayload) : Prop :=
  1 ≤ p.slot ∧ ((heldAsSlot n sender .emboss 8 && decide (p.slot = 8)) = true ∨ heldAsSlot n sender .print p.slot = true)

/-- R45: the carried result, written in the carried slot. -/
def withResult (p : RegisterPayload) (r : RepeatRecord) : RepeatRecord :=
  { r with results := r.results.set (p.slot - 1) (some { state := p.state, error := p.error, steps := p.steps }) }

/-- R45: the nip report that the REGISTER carries, where the sender is held as EMBOSS. -/
def carriedNip (n : Node) (sender : Nat) (p : RegisterPayload) : Option (Nat × Coverage) :=
  if heldAs n sender .emboss then p.nip else none

/-- The records with a nip report marked. -/
def withNip (l : List RepeatRecord) : Option (Nat × Coverage) → List RepeatRecord
  | none => l
  | some c => mapRecord l c.1 fun r => { r with nip := some c.2 }

theorem applyRegister_held (n : Node) (sender : Nat) (p : RegisterPayload) (h : slotHeld n sender p) :
    applyRegister n sender p =
      { n with track := { n.track with
          table := withNip (mapRecord n.track.table p.number (withResult p)) (carriedNip n sender p) } } := by
  unfold slotHeld at h
  unfold applyRegister carriedNip
  dsimp only
  rw [if_pos h]
  cases p.nip with
  | none => cases heldAs n sender .emboss <;> rfl
  | some c =>
    cases hb : heldAs n sender .emboss <;> rfl

theorem applyRegister_other (n : Node) (sender : Nat) (p : RegisterPayload) (h : ¬slotHeld n sender p) :
    applyRegister n sender p =
      { n with track := { n.track with table := withNip n.track.table (carriedNip n sender p) } } := by
  unfold slotHeld at h
  unfold applyRegister carriedNip
  dsimp only
  rw [if_neg h]
  cases p.nip with
  | none => cases heldAs n sender .emboss <;> rfl
  | some c => cases hb : heldAs n sender .emboss <;> rfl

/-- R45: the table behind a REGISTER heard from `sender`. -/
def registerTable (n : Node) (sender : Nat) (p : RegisterPayload) : List RepeatRecord :=
  (applyRegister n sender p).track.table

theorem applyRegister_eq (n : Node) (sender : Nat) (p : RegisterPayload) :
    applyRegister n sender p = { n with track := { n.track with table := registerTable n sender p } } := by
  unfold registerTable
  by_cases h : slotHeld n sender p
  · rw [applyRegister_held n sender p h]
  · rw [applyRegister_other n sender p h]

theorem registerTable_held (n : Node) (sender : Nat) (p : RegisterPayload) (h : slotHeld n sender p) :
    registerTable n sender p = withNip (mapRecord n.track.table p.number (withResult p)) (carriedNip n sender p) := by
  unfold registerTable
  rw [applyRegister_held n sender p h]

theorem registerTable_other (n : Node) (sender : Nat) (p : RegisterPayload) (h : ¬slotHeld n sender p) :
    registerTable n sender p = withNip n.track.table (carriedNip n sender p) := by
  unfold registerTable
  rw [applyRegister_other n sender p h]

theorem carriedNip_none (n : Node) (sender : Nat) (p : RegisterPayload)
    (h : p.nip = none ∨ heldAs n sender .emboss = false) : carriedNip n sender p = none := by
  unfold carriedNip
  rcases h with h | h
  · rw [h]
    exact ite_self none
  · rw [h]
    rfl

theorem carriedNip_some (n : Node) (sender : Nat) (p : RegisterPayload) (c : Nat × Coverage) (hp : p.nip = some c)
    (h : heldAs n sender .emboss = true) : carriedNip n sender p = some c := by
  unfold carriedNip
  rw [if_pos h, hp]

/-- A station held as EMBOSS with slot 8 is held as EMBOSS. -/
theorem heldAs_of_slot (n : Node) (k : Nat) (r : Role) (c : Nat) (h : heldAsSlot n k r c = true) : heldAs n k r = true := by
  unfold heldAsSlot at h
  simp only [Bool.and_eq_true, decide_eq_true_eq] at h
  obtain ⟨hr, hs⟩ := h
  simp [heldAs, hr, hs]

/-! ### The frames -/

/-- The settled node behind a frame that writes link, peers and records. -/
theorem settled_track_eq (n : Node) (p : List Peer) (l : Link) (t : Track) :
    holdSettle (clearFrame { n with peers := p, link := l, track := t }) = { n with
      link := (holdSettle (clearFrame { n with peers := p, link := l, track := t })).link,
      peers := (holdSettle (clearFrame { n with peers := p, link := l, track := t })).peers,
      track := (holdSettle (clearFrame { n with peers := p, link := l, track := t })).track,
      hold := (holdSettle (clearFrame { n with peers := p, link := l, track := t })).hold,
      port := (holdSettle (clearFrame { n with peers := p, link := l, track := t })).port } := by
  have h0 := holdSettle_eq (clearFrame { n with peers := p, link := l, track := t })
  generalize holdSettle (clearFrame { n with peers := p, link := l, track := t }) = k at h0 ⊢
  rw [h0]
  rfl

theorem registerTable_heard (o : Origin) (s : State) (p : RegisterPayload) (hh : HearsAnother o s) :
    registerTable (heardNode s.node o (.register p)) o.sender p = registerTable s.node o.sender p := by
  have hno : ∀ q, Telegram.register p ≠ .join q := fun _ h => by cases h
  have hslot : slotHeld (heardNode s.node o (.register p)) o.sender p ↔ slotHeld s.node o.sender p := by
    unfold slotHeld
    rw [heldAsSlot_heard o s _ hh hno, heldAsSlot_heard o s _ hh hno]
  have hnip : carriedNip (heardNode s.node o (.register p)) o.sender p = carriedNip s.node o.sender p := by
    unfold carriedNip
    rw [heldAs_heard o s _ hh hno]
  by_cases h : slotHeld s.node o.sender p
  · rw [registerTable_held _ _ _ (hslot.2 h), registerTable_held _ _ _ h, hnip]
    rfl
  · rw [registerTable_other _ _ _ (fun hq => h (hslot.1 hq)), registerTable_other _ _ _ h, hnip]
    rfl

/-- What a frame that writes the records alone leaves. -/
def RecordsWritten (o : Origin) (s : State) (x : Nat) (table : List RepeatRecord) (n : Node) : Prop :=
  Heard o s n ∧ HeardRepeat o (lastHeard o s) x n ∧ n.track = { s.node.track with table := table } ∧
    n = { s.node with link := n.link, peers := n.peers, track := n.track, hold := n.hold, port := n.port }

theorem hears_records (o : Origin) (s : State) (t : Telegram) (x : Nat) (table : List RepeatRecord) (hh : HearsAnother o s)
    (ht : ∀ p, t ≠ .join p) (hc : carriedRepeat t = some x)
    (happ : handOver (heardNode s.node o t) o false false t =
      { heardNode s.node o t with track := { s.node.track with table := table } }) :
    RecordsWritten o s x table (completeFrame o t s.node) := by
  obtain ⟨hm, hheard, hpeer⟩ := hears o s t hh ht _ happ rfl rfl rfl rfl
  rw [hm]
  refine ⟨hheard, heardRepeat_of o s t x _ hc hpeer, ?_, settled_track_eq s.node _ _ _⟩
  rw [holdSettle_track]
  rfl

theorem register_written (o : Origin) (s : State) (p : RegisterPayload) (hh : HearsAnother o s) :
    RecordsWritten o s p.number (registerTable s.node o.sender p) (meaning (.register o p) s.node) := by
  refine hears_records o s (.register p) p.number _ hh (fun _ h => by cases h) rfl ?_
  refine (applyRegister_eq (heardNode s.node o (.register p)) o.sender p).trans ?_
  rw [registerTable_heard o s p hh]
  rfl

/-- R46: the records behind a SHADE. -/
def shadeTable (n : Node) (sender : Nat) (p : ShadePayload) : List RepeatRecord :=
  if heldAs n sender .shade then
    mapRecord n.track.table p.number fun r => { r with shade := some { grade := p.grade, left := p.left, right := p.right } }
  else n.track.table

theorem shade_written (o : Origin) (s : State) (p : ShadePayload) (hh : HearsAnother o s) :
    RecordsWritten o s p.number (shadeTable s.node o.sender p) (meaning (.shade o p) s.node) := by
  have hno : ∀ q, Telegram.shade p ≠ .join q := fun _ h => by cases h
  refine hears_records o s (.shade p) p.number _ hh hno rfl ?_
  show applyShade (heardNode s.node o (.shade p)) o.sender p = _
  unfold applyShade shadeTable
  rw [heldAs_heard o s _ hh hno]
  split <;> rfl

/-- Settles O41: the table behind the frame by whether the sender is held for the slot and for the nip report. -/
theorem resultsEnterTheRecords : Obligations.ResultsEnterTheRecords := by
  unfold Obligations.ResultsEnterTheRecords
  intro o s hh
  refine ⟨fun p hprint hemboss hnip => after_meaning ?_, fun p hnip => after_meaning ?_,
    fun p x cov hnip hslot hk => after_meaning ?_, fun p x cov hnip hslot hk => after_meaning ?_, fun p => after_meaning ?_⟩
  · obtain ⟨hheard, -, htrack, hframe⟩ := register_written o s p hh
    have hno : ¬slotHeld s.node o.sender p := by
      rintro ⟨h1, he | hp⟩
      · simp only [Bool.and_eq_true, decide_eq_true_eq] at he
        rcases hemboss with h | h
        · rw [h] at he
          exact Bool.false_ne_true he.1
        · exact h he.2
      · rcases hprint with h | h
        · rw [h] at hp
          cases hp
        · omega
    rw [registerTable_other _ _ _ hno, carriedNip_none _ _ _ hnip] at htrack
    refine ⟨hheard, htrack, ?_⟩
    rw [htrack] at hframe
    exact hframe
  · obtain ⟨hheard, hrep, htrack, hframe⟩ := register_written o s p hh
    refine ⟨hheard, hrep, fun h1 _ hk => ?_, fun h8 hk => ?_, hframe⟩
    · rw [registerTable_held _ _ _ ⟨h1, Or.inr hk⟩, carriedNip_none _ _ _ hnip] at htrack
      exact htrack
    · have hheld : slotHeld s.node o.sender p := ⟨by omega, Or.inl (by simp [hk, h8])⟩
      rw [registerTable_held _ _ _ hheld, carriedNip_none _ _ _ hnip] at htrack
      unfold withResult at htrack
      rw [h8] at htrack
      exact htrack
  · obtain ⟨hheard, hrep, htrack, hframe⟩ := register_written o s p hh
    have hno : ¬slotHeld s.node o.sender p := fun h => by
      have h1 := h.1
      omega
    rw [registerTable_other _ _ _ hno, carriedNip_some _ _ _ _ hnip hk] at htrack
    exact ⟨hheard, hrep, htrack, hframe⟩
  · obtain ⟨hheard, hrep, htrack, hframe⟩ := register_written o s p hh
    have hheld : slotHeld s.node o.sender p := ⟨by omega, Or.inl (by simp [hk, hslot])⟩
    rw [registerTable_held _ _ _ hheld, carriedNip_some _ _ _ _ hnip (heldAs_of_slot _ _ _ _ hk)] at htrack
    unfold withResult at htrack
    rw [hslot] at htrack
    exact ⟨hheard, hrep, hframe, htrack⟩
  · obtain ⟨hheard, hrep, htrack, hframe⟩ := shade_written o s p hh
    refine ⟨hheard, hrep, fun hk => ?_, fun hk => ?_, hframe⟩
    · have ht : shadeTable s.node o.sender p = _ := if_pos hk
      rw [ht] at htrack
      exact htrack
    · have ht : shadeTable s.node o.sender p = s.node.track.table := if_neg (by rw [hk]; exact Bool.false_ne_true)
      rw [ht] at htrack
      exact htrack

end Sys2Proof.Proofs
end

/-! PROOFS. HOLD SET and HOLD CLEAR (R149 to R151). -/
section
namespace Sys2Proof.Proofs

open Sys2Proof.Machine Sys2Proof.Laws Sys2Proof.Claims

/-! ### What the Hold Unit keeps of its records -/

/-- R144 to R146: the factor changes touch neither the hold list nor the statements offered and completed. -/
theorem holdAbsorb_records (n : Node) :
    (holdAbsorb n).hold.list = n.hold.list ∧ (holdAbsorb n).hold.inOffer = n.hold.inOffer ∧
    (holdAbsorb n).hold.lastDone = n.hold.lastDone ∧ (holdAbsorb n).hold.waiting = n.hold.waiting := by
  have hq : ∀ (m : Node) (f : CauseSet), (beginQuiet m f).hold.list = m.hold.list ∧
      (beginQuiet m f).hold.inOffer = m.hold.inOffer ∧ (beginQuiet m f).hold.lastDone = m.hold.lastDone ∧
      (beginQuiet m f).hold.waiting = m.hold.waiting := by
    intro m f
    unfold beginQuiet
    split
    · rw [setHoldState_hold]
      exact ⟨rfl, rfl, rfl, rfl⟩
    · exact ⟨rfl, rfl, rfl, rfl⟩
  unfold holdAbsorb
  dsimp only
  split
  · exact hq n _
  · split
    · obtain ⟨h1, h2, h3, h4⟩ := hq (setHold n (factorSet n)) (factorSet n)
      rw [h1, h2, h3, h4]
      unfold setHold
      rw [setHoldState_hold]
      exact ⟨rfl, rfl, rfl, rfl⟩
    · next w hw =>
      obtain ⟨h1, h2, h3, h4⟩ := hq (growHold n w (factorSet n &&& ~~~n.hold.seen)) (factorSet n)
      rw [h1, h2, h3, h4, growHold_hold]
      exact ⟨rfl, rfl, rfl, rfl⟩

theorem holdOffer_records (n : Node) :
    (holdOffer n).hold.list = n.hold.list ∧ (holdOffer n).hold.lastDone = n.hold.lastDone := by
  rw [holdOffer_eq]
  exact ⟨rfl, rfl⟩

/-- A statement in offer keeps every other from being offered. -/
theorem holdOffer_busy (n : Node) (h : n.hold.inOffer ≠ none) : holdOffer n = n := by
  unfold holdOffer
  split
  · rfl
  · exact if_pos (Or.inl h)

theorem holdSettle_records (n : Node) :
    (holdSettle n).hold.list = n.hold.list ∧ (holdSettle n).hold.lastDone = n.hold.lastDone := by
  obtain ⟨h1, -, h3, -⟩ := holdAbsorb_records n
  unfold holdSettle
  split
  · exact ⟨rfl, rfl⟩
  · split
    · exact ⟨rfl, rfl⟩
    · dsimp only
      split
      · exact ⟨h1, h3⟩
      · unfold holdOfferWanted
        obtain ⟨a1, -, a3, -⟩ := holdAbsorb_records (holdOffer (holdAbsorb n))
        obtain ⟨o1, o3⟩ := holdOffer_records (holdAbsorb n)
        exact ⟨a1.trans (o1.trans h1), a3.trans (o3.trans h3)⟩

theorem holdSettle_busy (n : Node) (h : n.hold.inOffer ≠ none) : (holdSettle n).hold.inOffer = n.hold.inOffer := by
  obtain ⟨-, h2, -⟩ := holdAbsorb_records n
  unfold holdSettle
  split
  · rfl
  · split
    · rfl
    · dsimp only
      split
      · exact h2
      · unfold holdOfferWanted
        rw [holdOffer_busy _ (by rw [h2]; exact h)]
        obtain ⟨-, a2, -⟩ := holdAbsorb_records (holdAbsorb n)
        exact a2.trans h2

/-- R139: with no factor change nothing enters the wanted statement, and nothing is offered. -/
theorem holdSettle_steady (n : Node) (h : n.hold.seen = factorSet n) :
    (holdSettle n).hold.wanted = n.hold.wanted ∧ (holdSettle n).hold.inOffer = n.hold.inOffer := by
  have hnone : factorSet n &&& ~~~n.hold.seen = 0 := by
    rw [h]
    apply BitVec.eq_of_getLsbD_eq
    intro i hi
    have h0 : (0 : CauseSet).getLsbD i = false := BitVec.getLsbD_zero
    rw [h0, BitVec.getLsbD_and, BitVec.getLsbD_not]
    cases (factorSet n).getLsbD i <;> simp
  have hw : (holdAbsorb n).hold.wanted = n.hold.wanted := by
    unfold holdAbsorb
    dsimp only
    rw [if_pos hnone]
    unfold beginQuiet
    split
    · rw [setHoldState_hold]
    · rfl
  obtain ⟨-, h2, -⟩ := holdAbsorb_records n
  unfold holdSettle
  split
  · exact ⟨rfl, rfl⟩
  · split
    · exact ⟨rfl, rfl⟩
    · dsimp only
      rw [if_pos hw]
      exact ⟨hw, h2⟩

/-! ### The hold list and the records -/

/-- R150, R151: an applied HOLD writes the hold list and the records alone. -/
theorem applyHoldSet_eq (n : Node) (k x : Nat) (c : CauseSet) :
    applyHoldSet n k x c = { n with
      hold := { n.hold with list := (applyHoldSet n k x c).hold.list },
      track := { n.track with table := (applyHoldSet n k x c).track.table } } := by
  unfold applyHoldSet
  split
  · rfl
  · split <;> rfl

theorem applyHoldClear_eq (n : Node) (k m : Nat) :
    applyHoldClear n k m = { n with
      hold := { n.hold with list := (applyHoldClear n k m).hold.list },
      track := { n.track with table := (applyHoldClear n k m).track.table } } := by
  unfold applyHoldClear
  split <;> rfl

/-- The records of `l` that station `k` holds from repeat `x` on. -/
def heldFrom (l : List RepeatRecord) (k x : Nat) : List RepeatRecord :=
  l.map fun r => if repeatAtOrAfter r.number x then { r with heldBy := r.heldBy ||| stationBit k } else r

theorem applyHoldSet_first (n : Node) (k x : Nat) (c : CauseSet) (hs : holdSender n k = true) (hn : openHoldOf n k = none)
    (hl : n.hold.list.length < 32) :
    (applyHoldSet n k x c).hold.list = n.hold.list ++ [{ station := k, first := x, last := none, causes := c }] ∧
    (applyHoldSet n k x c).track.table = heldFrom n.track.table k x := by
  unfold applyHoldSet
  rw [if_neg (by rw [hs]; decide), hn]
  refine ⟨?_, rfl⟩
  show roomForHold n.hold.list ++ _ = _
  unfold roomForHold
  rw [if_pos hl]

theorem applyHoldSet_wider (n : Node) (k x : Nat) (c : CauseSet) (h : HoldEntry) (hs : holdSender n k = true)
    (ho : openHoldOf n k = some h) :
    (applyHoldSet n k x c).hold.list = updateOpen n.hold.list k (fun e =>
      { e with first := olderRepeat h.first x, causes := e.causes ||| c }) ∧
    (applyHoldSet n k x c).track.table = heldFrom n.track.table k (olderRepeat h.first x) := by
  unfold applyHoldSet
  rw [if_neg (by rw [hs]; decide), ho]
  exact ⟨rfl, rfl⟩

theorem holdSender_heard (o : Origin) (s : State) (t : Telegram) (hh : HearsAnother o s) (ht : ∀ p, t ≠ .join p) (k : Nat) :
    holdSender (heardNode s.node o t) k = holdSender s.node k := by
  unfold holdSender
  rw [heldAs_heard o s t hh ht, heldAs_heard o s t hh ht, heldAs_heard o s t hh ht, heldAs_heard o s t hh ht,
    heldAs_heard o s t hh ht]

/-- A heard HOLD SET leaves the list and the table that its application makes. -/
theorem holdSet_heard (o : Origin) (s : State) (x : Nat) (c : CauseSet) (hh : HearsAnother o s) :
    Heard o s (meaning (.holdSet o x c) s.node) ∧
    (meaning (.holdSet o x c) s.node).hold.list = (applyHoldSet (heardNode s.node o (.holdSet x c)) o.sender x c).hold.list ∧
    (meaning (.holdSet o x c) s.node).track.table =
      (applyHoldSet (heardNode s.node o (.holdSet x c)) o.sender x c).track.table := by
  have he := applyHoldSet_eq (heardNode s.node o (.holdSet x c)) o.sender x c
  obtain ⟨hm, hheard, -⟩ := hears o s (.holdSet x c) hh (fun _ h => by cases h)
    (applyHoldSet (heardNode s.node o (.holdSet x c)) o.sender x c) rfl (by rw [he]; rfl) (by rw [he]; rfl) (by rw [he]; rfl)
    (by rw [he]; rfl)
  rw [meaning, hm, holdSettle_track, (holdSettle_records _).1]
  exact ⟨hheard, rfl, rfl⟩

theorem holdClear_heard (o : Origin) (s : State) (x : Nat) (c : CauseSet) (hh : HearsAnother o s) :
    Heard o s (meaning (.holdClear o x c) s.node) ∧
    (meaning (.holdClear o x c) s.node).hold.list = (applyHoldClear (heardNode s.node o (.holdClear x c)) o.sender x).hold.list ∧
    (meaning (.holdClear o x c) s.node).track.table =
      (applyHoldClear (heardNode s.node o (.holdClear x c)) o.sender x).track.table := by
  have he := applyHoldClear_eq (heardNode s.node o (.holdClear x c)) o.sender x
  obtain ⟨hm, hheard, -⟩ := hears o s (.holdClear x c) hh (fun _ h => by cases h)
    (applyHoldClear (heardNode s.node o (.holdClear x c)) o.sender x) rfl (by rw [he]; rfl) (by rw [he]; rfl) (by rw [he]; rfl)
    (by rw [he]; rfl)
  rw [meaning, hm, holdSettle_track, (holdSettle_records _).1]
  exact ⟨hheard, rfl, rfl⟩

theorem heardHoldsMarkTheRecords : Claims.HeardHoldsMarkTheRecords := by
  intro o s x c hh hsender hlen
  obtain ⟨hheard, hlist, htable⟩ := holdSet_heard o s x c hh
  have hset : holdSender (heardNode s.node o (.holdSet x c)) o.sender = true :=
    (holdSender_heard o s _ hh (fun _ h => by cases h) _).trans hsender
  have hclear : holdSender (heardNode s.node o (.holdClear x c)) o.sender = true :=
    (holdSender_heard o s _ hh (fun _ h => by cases h) _).trans hsender
  refine ⟨fun hn => after_meaning ?_, fun h ho => after_meaning ?_, fun h ho => after_meaning ?_, after_meaning ?_⟩
  · obtain ⟨hl, ht⟩ := applyHoldSet_first (heardNode s.node o (.holdSet x c)) o.sender x c hset hn hlen
    exact ⟨hheard, hlist.trans hl, htable.trans ht⟩
  · obtain ⟨hl, -⟩ := applyHoldSet_wider (heardNode s.node o (.holdSet x c)) o.sender x c h hset ho
    exact ⟨hheard, hlist.trans hl⟩
  · obtain ⟨-, ht⟩ := applyHoldSet_wider (heardNode s.node o (.holdSet x c)) o.sender x c h hset ho
    exact htable.trans ht
  · obtain ⟨hheard', hlist', htable'⟩ := holdClear_heard o s x c hh
    have happ : applyHoldClear (heardNode s.node o (.holdClear x c)) o.sender x = _ := if_neg (by rw [hclear]; decide)
    rw [happ] at hlist' htable'
    exact ⟨hheard', hlist', htable'⟩

/-! ### The own HOLD (R149) -/

/-- The node whose own statement has completed and is handed over to its blocks. -/
def ownHoldNode (s : State) (st : Statement) : Node :=
  handOver (ownNode s.node (statementTelegram st)) (ownOrigin s) true false (statementTelegram st)

theorem ownHoldNode_eq (s : State) (st : Statement) : ownHoldNode s st = { s.node with
    link := ownLink s.node.link (cfg s.node).station,
    hold := { s.node.hold with list := (ownHoldNode s st).hold.list },
    track := { s.node.track with table := (ownHoldNode s st).track.table } } := by
  cases st with
  | set x c => exact applyHoldSet_eq _ _ _ _
  | clear x c => exact applyHoldClear_eq _ _ _

/-- R149: the node behind the completion of its statement. -/
def holdDoneNode (s : State) (st : Statement) : Node :=
  { ownHoldNode s st with hold := { (ownHoldNode s st).hold with lastDone := some st, inOffer := none } }

theorem ownHold_completes (s : State) (st : Statement) (h : Sends s (statementTelegram st) .hold)
    (ho : s.node.hold.inOffer = some st) :
    completeFrame (ownOrigin s) (statementTelegram st) s.node =
      holdSettle (clearFrame (if wantedDone (holdDoneNode s st) ∨ !holdWorks (holdDoneNode s st) then holdDoneNode s st
        else holdOfferWanted (holdDoneNode s st))) := by
  have hoff : (ownHoldNode s st).hold.inOffer = some st := by
    rw [ownHoldNode_eq]
    exact ho
  have hdone : endHoldOffer { ownHoldNode s st with
      hold := { (ownHoldNode s st).hold with lastDone := (ownHoldNode s st).hold.inOffer } } = holdDoneNode s st := by
    unfold endHoldOffer holdDoneNode
    rw [hoff]
  have hcomplete : completeHold (ownHoldNode s st) = if wantedDone (holdDoneNode s st) ∨ !holdWorks (holdDoneNode s st)
      then holdDoneNode s st else holdOfferWanted (holdDoneNode s st) := by
    unfold completeHold
    rw [hdone]
  rw [← hcomplete]
  exact completeFrame_sent s (statementTelegram st) .hold h (by cases st <;> rfl) (by cases st <;> rfl)

theorem downQueued_drop (n : Node) (l : Link) (h : downQueued n = false) (hl : l.queue = n.link.queue.drop 1) :
    downQueued { n with link := l } = false := by
  unfold downQueued at h ⊢
  rw [List.any_eq_false] at h ⊢
  intro e he
  rw [hl] at he
  exact h e (List.mem_of_mem_drop he)

theorem ownHoldsOfferTheWantedStatement : Claims.OwnHoldsOfferTheWantedStatement := by
  intro s st w hsends hr hres ho hwait hwant hdown hlen same
  have hcomp := ownHold_completes s st hsends ho
  have hst : s.node.st = .joined := hsends.1
  have heq := ownHoldNode_eq s st
  let d := holdDoneNode s st
  have hd : d = holdDoneNode s st := rfl
  have hde : d = { s.node with
      link := ownLink s.node.link (cfg s.node).station,
      hold := { s.node.hold with list := (ownHoldNode s st).hold.list, lastDone := some st, inOffer := none },
      track := { s.node.track with table := (ownHoldNode s st).track.table } } := by
    rw [hd]
    unfold holdDoneNode
    rw [heq]
  have hsame : wantedDone d = true ↔ same := by
    have hws : wantedDone d = sameStatement w st := by
      unfold wantedDone
      rw [hde]
      dsimp only
      rw [hwant]
    rw [hws]
    exact sameStatement_iff w st
  have hworks : holdWorks d = true := by
    rw [hde]
    exact holdWorks_intro (by simp [isJoined, hst]) hr hres
  refine ⟨fun hs hfault hseen => after_frameOf ?_, fun hs => after_frameOf ?_⟩
  · have hfactor : factorSet (clearFrame d) = factorSet s.node := by
      have hl : (clearFrame d).link.linkFault = s.node.link.linkFault := by
        rw [hde]
        show (s.node.link.linkFault && _) = _
        rw [hfault]
        rfl
      unfold factorSet factorInputs
      rw [hl, hde]
      rfl
    have hseen' : (clearFrame d).hold.seen = factorSet (clearFrame d) := by
      rw [hfactor, ← hseen, hde]
      rfl
    obtain ⟨h1, h2⟩ := holdSettle_steady (clearFrame d) hseen'
    rw [hcomp, if_pos (Or.inl (hsame.2 hs))]
    refine ⟨?_, ?_, ?_, ?_⟩
    · rw [(holdSettle_records _).2]
      rfl
    · rw [h2]
      rfl
    · rw [h1, hde]
      exact hwant
    · rw [settled_sending]
      exact congrArg (fun n : Node => n.link.sending) hde
  · have hnot : ¬(wantedDone d = true ∨ (!holdWorks d) = true) := by
      rintro (h | h)
      · exact hs (hsame.1 h)
      · rw [hworks] at h
        cases h
    have hoffer : holdOffer d = { d with
        hold := { d.hold with inOffer := some w },
        link := { d.link with queue := d.link.queue ++
          [{ telegram := statementTelegram w, restate := false, offerBy := .hold }] } } := by
      have henq := enqueue_joined d (statementTelegram w) false .hold (by rw [hde]; simp [isJoined, hst])
        (by rw [hde]; exact downQueued_drop s.node _ hdown rfl) (by
          rw [hde]
          show (s.node.link.queue.drop 1).length < 16
          rw [List.length_drop]
          omega)
      have hwd : d.hold.wanted = some w := by
        rw [hde]
        exact hwant
      have hfree : ¬(d.hold.inOffer ≠ none ∨ d.hold.waiting = true) := by
        rw [hde]
        rintro (h | h)
        · exact h rfl
        · rw [show _ = true from h] at hwait
          cases hwait
      unfold holdOffer
      rw [hwd]
      dsimp only
      rw [if_neg hfree, henq]
    rw [hcomp, if_neg hnot]
    unfold holdOfferWanted
    obtain ⟨-, a2, a3, -⟩ := holdAbsorb_records (holdOffer d)
    have hlink : (holdAbsorb (holdOffer d)).link = (holdOffer d).link := holdAbsorb_link _
    have hin : (clearFrame (holdAbsorb (holdOffer d))).hold.inOffer = some w := by
      refine a2.trans ?_
      rw [hoffer]
    refine ⟨?_, ?_, ?_, _, holdSettle_keeps_entry _ { telegram := statementTelegram w, restate := false, offerBy := .hold } ?_ ?_,
      rfl, rfl, rfl⟩
    · rw [(holdSettle_records _).2]
      refine a3.trans ?_
      rw [hoffer]
      rfl
    · rw [holdSettle_busy _ (by rw [hin]; exact Option.some_ne_none w), hin]
    · rw [settled_sending, hlink, hoffer, hde]
      rfl
    · show _ ∈ (holdAbsorb (holdOffer d)).link.queue
      rw [hlink, hoffer]
      exact List.mem_append_right _ (List.mem_singleton_self _)
    · cases w <;> rfl

/-- Settles O43: a heard HOLD by what its application writes, the own one by the statement wanted behind it. -/
theorem holdsMarkTheRecords : Obligations.HoldsMarkTheRecords := ⟨heardHoldsMarkTheRecords, ownHoldsOfferTheWantedStatement⟩

end Sys2Proof.Proofs
end

/-! PROOFS. REPEAT of another station: the record it appends, the eviction that makes room, and the splice it plans (R43, R44,
R157). -/
section
namespace Sys2Proof.Proofs

open Sys2Proof.Machine Sys2Proof.Laws Sys2Proof.Claims

/-! ### What a REPEAT writes -/

theorem testSwitch_eq (n : Node) (j : Option JobRecord) (x : Nat) :
    (testSwitch n j x).1 = { n with marks := (testSwitch n j x).1.marks, job := (testSwitch n j x).1.job } := by
  unfold testSwitch
  split
  · rfl
  · split
    · split <;> rfl
    · rfl

theorem planSplice_eq (n : Node) (x : Nat) : planSplice n x = { n with roll := (planSplice n x).roll } := by
  unfold planSplice
  split <;> rfl

/-- R44: what an eviction leaves. -/
theorem evictRecord_eq (n : Node) : evictRecord n = { n with
    track := { n.track with
      table := (evictRecord n).track.table, evictions := (evictRecord n).track.evictions,
      here := (evictRecord n).track.here, missed := (evictRecord n).track.missed },
    roll := { n.roll with lastGap := (evictRecord n).roll.lastGap } } := by
  unfold evictRecord
  split
  · rfl
  · dsimp only
    split <;> split <;> rfl

/-- R43, R44: the node with room for a record. -/
def madeRoom (n : Node) : Node := if n.track.table.length < 512 then n else evictRecord n

/-- R43: the node with the record of a REPEAT appended. -/
def appended (n : Node) (p : RepeatPayload) : Node :=
  { madeRoom n with track := { (madeRoom n).track with table := (madeRoom n).track.table ++ [newRecord (madeRoom n) p] } }

/-- R76: a LABEL node tests for a switch at each record. -/
def switchTested (n : Node) (p : RepeatPayload) : Node :=
  if isRole n .label then (testSwitch n n.job.given p.number).1 else n

/-- R157: the splice that a REPEAT carries is planned. -/
def splicePlanned (n : Node) (p : RepeatPayload) : Node :=
  match p.splice with
  | some _ => planSplice n p.number
  | none => n

theorem appendRepeat_set_aside (n : Node) (k : Nat) (p : RepeatPayload)
    (h : heldAs n k .key = false ∨ repeatTooOld n p.number = true) : appendRepeat n k p = n := by
  refine if_pos ?_
  rcases h with h | h
  · exact Or.inl (by rw [h]; rfl)
  · exact Or.inr h

theorem appendRepeat_taken (n : Node) (k : Nat) (p : RepeatPayload) (hk : heldAs n k .key = true)
    (hx : repeatTooOld n p.number = false) :
    appendRepeat n k p = splicePlanned (switchTested (appended n p) p) p := by
  have hno : ¬((!heldAs n k .key) = true ∨ repeatTooOld n p.number = true) := by
    rw [hk, hx]
    decide
  unfold appendRepeat
  rw [if_neg hno]
  rfl

theorem splicePlanned_eq (n : Node) (p : RepeatPayload) : splicePlanned n p = { n with roll := (splicePlanned n p).roll } := by
  unfold splicePlanned
  split
  · exact planSplice_eq n _
  · rfl

theorem switchTested_eq (n : Node) (p : RepeatPayload) :
    switchTested n p = { n with marks := (switchTested n p).marks, job := (switchTested n p).job } := by
  unfold switchTested
  split
  · exact testSwitch_eq n _ _
  · rfl

theorem madeRoom_eq (n : Node) : madeRoom n = { n with
    track := { n.track with
      table := (madeRoom n).track.table, evictions := (madeRoom n).track.evictions, here := (madeRoom n).track.here,
      missed := (madeRoom n).track.missed },
    roll := { n.roll with lastGap := (madeRoom n).roll.lastGap } } := by
  unfold madeRoom
  split
  · rfl
  · exact evictRecord_eq n

/-- R43: a REPEAT writes marks, records, job and roll builder, and nothing else. -/
theorem appendRepeat_eq (n : Node) (k : Nat) (p : RepeatPayload) : appendRepeat n k p = { n with
    marks := (appendRepeat n k p).marks, track := (appendRepeat n k p).track, job := (appendRepeat n k p).job,
    roll := (appendRepeat n k p).roll } := by
  by_cases h : heldAs n k .key = false ∨ repeatTooOld n p.number = true
  · rw [appendRepeat_set_aside n k p h]
  · have hk : heldAs n k .key = true := by
      refine Classical.byContradiction fun hc => ?_
      exact h (Or.inl (by simpa using hc))
    have hx : repeatTooOld n p.number = false := by
      refine Classical.byContradiction fun hc => ?_
      exact h (Or.inr (by simpa using hc))
    rw [appendRepeat_taken n k p hk hx, splicePlanned_eq, switchTested_eq]
    unfold appended
    rw [madeRoom_eq]

/-- R43: the records behind a REPEAT that is taken, with the tracker as the eviction left it. -/
theorem appendRepeat_track (n : Node) (k : Nat) (p : RepeatPayload) (hk : heldAs n k .key = true)
    (hx : repeatTooOld n p.number = false) :
    (appendRepeat n k p).track =
      { (madeRoom n).track with table := (madeRoom n).track.table ++ [newRecord (madeRoom n) p] } := by
  rw [appendRepeat_taken n k p hk hx, splicePlanned_eq, switchTested_eq]
  rfl

theorem madeRoom_table (n : Node) :
    (madeRoom n).track.table = if n.track.table.length < 512 then n.track.table else n.track.table.tail := by
  unfold madeRoom
  split
  · rfl
  · exact (evictRecord_bounds n).1

/-! ### The stations that hold a new record -/

/-- R43: the fold over the hold list sets the bit of each station with an OPEN hold. -/
theorem heldBy_fold (l : List HoldEntry) (hpos : ∀ h ∈ l, 1 ≤ h.station) (k : Nat) (h1 : 1 ≤ k) (h31 : k ≤ 31) (init : StationSet) :
    (l.foldl (fun s h => if h.last.isNone then s ||| BitVec.ofNat 32 (2 ^ (h.station - 1)) else s) init).getLsbD (k - 1) =
      (init.getLsbD (k - 1) || l.any fun h => decide (h.station = k) && h.last.isNone) := by
  induction l generalizing init with
  | nil => simp
  | cons e rest ih =>
    have hpe : 1 ≤ e.station := hpos e (List.mem_cons_self ..)
    have hbit : (BitVec.ofNat 32 (2 ^ (e.station - 1))).getLsbD (k - 1) = decide (e.station = k) := by
      have hiff : (e.station - 1 = k - 1) ↔ e.station = k := by omega
      have hlt : k - 1 < 32 := by omega
      rw [BitVec.getLsbD_ofNat, Nat.testBit_two_pow]
      simp [hiff, hlt]
    rw [List.foldl_cons, ih (fun h hm => hpos h (List.mem_cons_of_mem _ hm)), List.any_cons]
    cases hl : e.last.isNone
    · simp
    · simp only [if_true, BitVec.getLsbD_or, hbit, Bool.and_true, Bool.or_assoc]

theorem newRecord_heldBy (n : Node) (p : RepeatPayload) (hpos : ∀ h ∈ n.hold.list, 1 ≤ h.station) (k : Nat) (h1 : 1 ≤ k)
    (h31 : k ≤ 31) :
    (newRecord n p).heldBy.getLsbD (k - 1) = n.hold.list.any fun h => decide (h.station = k) && h.last.isNone := by
  have h0 : (0 : StationSet).getLsbD (k - 1) = false := BitVec.getLsbD_zero
  have hf := heldBy_fold n.hold.list hpos k h1 h31 0
  rw [h0, Bool.false_or] at hf
  exact hf

/-! ### The frame -/

/-- A heard REPEAT leaves what its application makes. -/
theorem repeat_heard (o : Origin) (s : State) (p : RepeatPayload) (hh : HearsAnother o s) :
    meaning (.repeat_ o p) s.node = holdSettle (clearFrame (appendRepeat (heardNode s.node o (.repeat_ p)) o.sender p)) ∧
    Heard o s (meaning (.repeat_ o p) s.node) ∧ HeardRepeat o (lastHeard o s) p.number (meaning (.repeat_ o p) s.node) := by
  have he := appendRepeat_eq (heardNode s.node o (.repeat_ p)) o.sender p
  obtain ⟨hm, hheard, hpeer⟩ := hears o s (.repeat_ p) hh (fun _ h => by cases h)
    (appendRepeat (heardNode s.node o (.repeat_ p)) o.sender p) rfl (by rw [he]; rfl) (by rw [he]; rfl) (by rw [he]; rfl)
    (by rw [he]; rfl)
  rw [meaning, hm]
  exact ⟨rfl, hheard, heardRepeat_of o s (.repeat_ p) p.number _ rfl hpeer⟩

theorem repeat_key (o : Origin) (s : State) (p : RepeatPayload) (hh : HearsAnother o s) :
    heldAs (heardNode s.node o (.repeat_ p)) o.sender .key = heldAs s.node o.sender .key :=
  heldAs_heard o s _ hh (fun _ h => by cases h) _ _

theorem repeatIsAppended : Claims.RepeatIsAppended := by
  intro o s p hh
  refine after_meaning ?_
  obtain ⟨hm, hheard, hrep⟩ := repeat_heard o s p hh
  have hkey := repeat_key o s p hh
  refine ⟨hheard, hrep, ?_⟩
  rw [hm]
  let m := heardNode s.node o (.repeat_ p)
  have he := appendRepeat_eq m o.sender p
  obtain ⟨hnewest, -⟩ := settled_newest (appendRepeat m o.sender p)
  refine ⟨?_, fun hk hx => ?_, fun hno => ?_, ?_, ?_, ?_, ?_, ?_, ?_⟩
  · rw [hnewest, he]
    rfl
  · have hbatch : (madeRoom m).batch = s.node.batch := by
      rw [madeRoom_eq]
      rfl
    have hhold : (madeRoom m).hold = s.node.hold := by
      rw [madeRoom_eq]
      rfl
    refine ⟨newRecord (madeRoom m) p, rfl, rfl, rfl, rfl, rfl, rfl, rfl, ?_, fun hpos k h1 h31 => ?_, ?_⟩
    · rw [← hbatch]
      rfl
    · rw [← hhold] at hpos ⊢
      exact newRecord_heldBy (madeRoom m) p hpos k h1 h31
    · rw [holdSettle_track]
      refine (congrArg Track.table (appendRepeat_track m o.sender p (hkey.trans hk) hx)).trans ?_
      exact congrArg (· ++ [newRecord (madeRoom m) p]) (madeRoom_table m)
  · rw [holdSettle_track, appendRepeat_set_aside m o.sender p (by rw [hkey]; exact hno)]
    rfl
  · rw [holdSettle_shade, he]
    rfl
  · rw [holdSettle_nip, he]
    rfl
  · rw [holdSettle_trig, he]
    rfl
  · rw [holdSettle_travel, he]
    rfl
  · rw [holdSettle_batch, he]
    rfl
  · rw [holdSettle_label, he]
    rfl

/-! ### Evictions -/

theorem agreePlan_lastGap (u : RollUnit) (a b : Nat) : (agreePlan u a b).lastGap = u.lastGap := by
  unfold agreePlan
  exact (apply_ite RollUnit.lastGap _ _ _).trans (ite_self _)

theorem splicePlanned_lastGap (n : Node) (p : RepeatPayload) : (splicePlanned n p).roll.lastGap = n.roll.lastGap := by
  unfold splicePlanned
  split
  · unfold planSplice
    split
    · exact agreePlan_lastGap _ _ _
    · rfl
  · rfl

theorem appendRepeat_lastGap (n : Node) (k : Nat) (p : RepeatPayload) (hk : heldAs n k .key = true)
    (hx : repeatTooOld n p.number = false) : (appendRepeat n k p).roll.lastGap = (madeRoom n).roll.lastGap := by
  rw [appendRepeat_taken n k p hk hx, splicePlanned_lastGap, switchTested_eq]
  rfl

/-- R44: the eviction of the oldest record by what its node is. -/
theorem evictRecord_oldest (n : Node) (old : RepeatRecord) (rest : List RepeatRecord) (ht : n.track.table = old :: rest) :
    (evictRecord n).track.evictions = n.track.evictions + 1 ∧ (evictRecord n).track.tracker = n.track.tracker ∧
    (eyeRole n = true → isPending n old = true →
      (evictRecord n).track.here = some old.number ∧ (evictRecord n).track.missed = n.track.missed + 1) ∧
    (eyeRole n = false ∨ isPending n old = false →
      (evictRecord n).track.here = n.track.here ∧ (evictRecord n).track.missed = n.track.missed) ∧
    (evictRecord n).roll.lastGap = (if isRole n .rewind then some old.number else n.roll.lastGap) := by
  unfold evictRecord
  rw [ht]
  dsimp only
  by_cases hp : eyeRole n = true ∧ isPending n old = true
  · have hno : ¬(eyeRole n = false ∨ isPending n old = false) := by
      rw [hp.1, hp.2]
      decide
    rw [if_pos hp]
    split <;> exact ⟨rfl, rfl, fun _ _ => ⟨rfl, rfl⟩, fun h => absurd h hno, rfl⟩
  · rw [if_neg hp]
    split <;> exact ⟨rfl, rfl, fun h1 h2 => absurd ⟨h1, h2⟩ hp, fun _ => ⟨rfl, rfl⟩, rfl⟩

theorem fullTablesEvictTheOldest : Claims.FullTablesEvictTheOldest := by
  intro o s p old rest hh hk hx ht hlen
  refine after_meaning ?_
  obtain ⟨hm, -, -⟩ := repeat_heard o s p hh
  have hkey := (repeat_key o s p hh).trans hk
  rw [hm, holdSettle_track, holdSettle_roll]
  let m := heardNode s.node o (.repeat_ p)
  have htrack := appendRepeat_track m o.sender p hkey hx
  have hgap := appendRepeat_lastGap m o.sender p hkey hx
  have hroom : madeRoom m = evictRecord m := by
    refine if_neg ?_
    show ¬s.node.track.table.length < 512
    rw [ht, List.length_cons, hlen]
    decide
  rw [hroom] at htrack hgap
  obtain ⟨h1, h2, h3, h4, h5⟩ := evictRecord_oldest m old rest ht
  have hfield : ∀ {α : Type} (f : Track → α), f (clearFrame (appendRepeat m o.sender p)).track =
      f { (evictRecord m).track with
          table := (evictRecord m).track.table ++ [newRecord (evictRecord m) p] } := fun f => congrArg f htrack
  refine ⟨(hfield Track.evictions).trans h1, (hfield Track.tracker).trans h2, fun he hp => ?_, fun hno => ?_, hgap.trans h5⟩
  · obtain ⟨ha, hb⟩ := h3 he hp
    exact ⟨(hfield Track.here).trans ha, (hfield Track.missed).trans hb⟩
  · obtain ⟨ha, hb⟩ := h4 hno
    exact ⟨(hfield Track.here).trans ha, (hfield Track.missed).trans hb⟩

/-! ### The splice that is planned -/

theorem repeatNewer_self (a : Nat) : repeatNewer a a = false := by
  have h : fwd repeatRange a a = 0 := by
    unfold fwd repeatRange
    omega
  simp [repeatNewer, newer, h]

/-- R157, step 2: whether the open WASTE piece begins the run. -/
def pieceStarts (u : RollUnit) (a : Nat) : Bool :=
  match u.piece with
  | some p => decide (p.kind = .waste) && decide (p.first = a)
  | none => false

/-- R157, step 1: the reasons of the entries inside the run. -/
def innerReasons (plan : List PlanEntry) (a b : Nat) : CutReasons :=
  (plan.filter fun e => repeatNewer e.cut a && repeatNewer b e.cut).foldl
    (fun r e => joinReasons r { e.reasons with full := false }) { splice := true }

/-- R157, step 1: the plan without the entries inside the run. -/
def outerPlan (plan : List PlanEntry) (a b : Nat) : List PlanEntry :=
  plan.filter fun e => !(repeatNewer e.cut a && repeatNewer b e.cut)

/-- R157, step 2: the entry at the start of the run. -/
def startEntered (u : RollUnit) (plan : List PlanEntry) (a : Nat) : List PlanEntry :=
  if pieceStarts u a then plan
  else
    match entryAt plan a with
    | some e =>
      if e.kind = PieceKind.waste then plan
      else updateEntry plan a fun e => { e with kind := .waste, reasons := joinReasons e.reasons { splice := true } }
    | none => insertEntry { cut := a, reasons := { splice := true }, kind := .waste } plan

/-- R157, step 3: the entry at the end of the run. -/
def endEntered (plan : List PlanEntry) (b : Nat) (r : CutReasons) : List PlanEntry :=
  if (entryAt plan b).isSome then updateEntry plan b fun e => { e with kind := .roll, reasons := joinReasons e.reasons r }
  else insertEntry { cut := b, reasons := r, kind := .roll } plan

/-- R157: the plan with the run from `a` to `b`. -/
def runEntered (u : RollUnit) (a b : Nat) : List PlanEntry :=
  endEntered (startEntered u (outerPlan u.plan a b) a) b (innerReasons u.plan a b)

theorem agreePlan_fits (u : RollUnit) (a b : Nat) (h : (runEntered u a b).length ≤ 8) :
    agreePlan u a b = { u with plan := runEntered u a b } := if_pos h

theorem agreePlan_full (u : RollUnit) (a b : Nat) (h : ¬(runEntered u a b).length ≤ 8) :
    agreePlan u a b = { u with planRefusals := u.planRefusals + 1 } := if_neg h

theorem pieceStarts_roll (u : RollUnit) (a : Nat) (h : ∀ pc, u.piece = some pc → pc.kind = .roll) : pieceStarts u a = false := by
  unfold pieceStarts
  cases hp : u.piece with
  | none => rfl
  | some pc => simp [h pc hp]

/-- Where the run begins in an empty plan, it makes a WASTE entry. -/
theorem startEntered_empty (u : RollUnit) (a : Nat) (h : pieceStarts u a = false) :
    startEntered u [] a = [{ cut := a, reasons := { splice := true }, kind := .waste }] := by
  unfold startEntered
  rw [h]
  rfl

/-- A ROLL entry at the start of the run turns WASTE. -/
theorem startEntered_roll (u : RollUnit) (e : PlanEntry) (h : pieceStarts u e.cut = false) (hk : e.kind = .roll) :
    startEntered u [e] e.cut = [{ e with kind := .waste, reasons := { e.reasons with splice := true } }] := by
  have hat : entryAt [e] e.cut = some e := by simp [entryAt]
  unfold startEntered
  rw [h, hat]
  simp [hk, updateEntry, joinReasons]

/-- The end of a run behind the one entry before it. -/
theorem endEntered_behind (e : PlanEntry) (b : Nat) (r : CutReasons) (hne : e.cut ≠ b) (hn : repeatNewer e.cut b = false) :
    endEntered [e] b r = [e, { cut := b, reasons := r, kind := .roll }] := by
  have hat : entryAt [e] b = none := by simp [entryAt, hne]
  unfold endEntered
  rw [hat]
  simp [insertEntry, hn]

theorem insertEntry_length (e : PlanEntry) (l : List PlanEntry) : (insertEntry e l).length = l.length + 1 := by
  induction l with
  | nil => rfl
  | cons x xs ih =>
    unfold insertEntry
    split
    · rfl
    · exact congrArg (· + 1) ih

theorem mem_insertEntry (e x : PlanEntry) (l : List PlanEntry) : x ∈ insertEntry e l ↔ x = e ∨ x ∈ l := by
  induction l with
  | nil => simp [insertEntry]
  | cons y ys ih =>
    unfold insertEntry
    split
    · simp
    · rw [List.mem_cons, ih, List.mem_cons]
      exact or_left_comm

theorem entryAt_none (plan : List PlanEntry) (x : Nat) (h : ∀ e ∈ plan, e.cut ≠ x) : entryAt plan x = none := by
  unfold entryAt
  rw [List.find?_eq_none]
  intro e he
  simpa using h e he

/-- A run strictly between other entries takes two places. -/
theorem runEntered_length (u : RollUnit) (a b : Nat) (hs : pieceStarts u a = false) (hne : a ≠ b)
    (h : ∀ e ∈ u.plan, e.cut ≠ a ∧ e.cut ≠ b ∧ (repeatNewer e.cut a = false ∨ repeatNewer b e.cut = false)) :
    (runEntered u a b).length = u.plan.length + 2 := by
  have hout : outerPlan u.plan a b = u.plan := by
    unfold outerPlan
    rw [List.filter_eq_self]
    intro e he
    rcases (h e he).2.2 with hn | hn <;> simp [hn]
  have hstart : startEntered u u.plan a = insertEntry { cut := a, reasons := { splice := true }, kind := .waste } u.plan := by
    unfold startEntered
    rw [hs, entryAt_none u.plan a fun e he => (h e he).1]
    rfl
  have hend : entryAt (insertEntry { cut := a, reasons := { splice := true }, kind := .waste } u.plan) b = none := by
    refine entryAt_none _ b fun e he => ?_
    rcases (mem_insertEntry _ _ _).1 he with rfl | hm
    · exact hne
    · exact (h e hm).2.1
  unfold runEntered endEntered
  rw [hout, hstart, hend]
  simp [insertEntry_length]

theorem runsOfPlan_rolls (l : List PlanEntry) (h : ∀ e ∈ l, e.kind = .roll) : runsOfPlan l = [] := by
  induction l with
  | nil => rfl
  | cons e es ih =>
    unfold runsOfPlan
    rw [if_neg (by rw [h e (List.mem_cons_self ..)]; decide)]
    exact ih fun x hx => h x (List.mem_cons_of_mem _ hx)

theorem wasteRuns_rolls (u : RollUnit) (hp : ∀ pc, u.piece = some pc → pc.kind = .roll) (h : ∀ e ∈ u.plan, e.kind = .roll) :
    wasteRuns u = [] := by
  unfold wasteRuns
  rw [runsOfPlan_rolls u.plan h]
  cases hpc : u.piece with
  | none => rfl
  | some pc => simp [hp pc hpc]

theorem uniteRuns_none (k : Nat) (ab : Nat × Nat) : uniteRuns [] k ab = ab := by
  induction k generalizing ab with
  | zero => rfl
  | succ k ih => exact ih ab

/-- R157: a waste run with no end, which the run reaches from a later start, gives it its own start. -/
theorem uniteRuns_open (f a b : Nat) (hn : repeatNewer a f = true) (hb : repeatAtOrAfter b f = true) (k : Nat) :
    uniteRuns [(f, none)] (k + 1) (a, b) = (f, b) := by
  have hone : ∀ x, (repeatNewer x f = true ∨ x = f) → uniteRun (x, b) (f, none) = (f, b) := by
    intro x hx
    unfold uniteRun runsTouch
    dsimp only
    rw [hb]
    rcases hx with hx | hx
    · rw [hx]
      rfl
    · rw [hx, repeatNewer_self]
      rfl
  have hfix : ∀ j, uniteRuns [(f, none)] j (f, b) = (f, b) := by
    intro j
    induction j with
    | zero => rfl
    | succ j ih =>
      show uniteRuns [(f, none)] j (uniteRun (f, b) (f, none)) = _
      rw [hone f (Or.inr rfl)]
      exact ih
  show uniteRuns [(f, none)] k (uniteRun (a, b) (f, none)) = _
  rw [hone a (Or.inl hn)]
  exact hfix k

/-- R157: the first repeat of the waste run that a splice in repeat `x` asks for. -/
def spliceStart (n : Node) (x : Nat) : Nat :=
  match n.track.here with
  | some h => if repeatNewer (subIn repeatRange x (cfg n).wasteBefore) h then subIn repeatRange x (cfg n).wasteBefore
    else succIn repeatRange h
  | none => subIn repeatRange x (cfg n).wasteBefore

/-- R157: the plan of a splice over the run that it asks for, united with those it meets. -/
def splicePlan (u : RollUnit) (a b : Nat) : RollUnit :=
  agreePlan u (uniteRuns (wasteRuns u) 10 (a, b)).1 (uniteRuns (wasteRuns u) 10 (a, b)).2

theorem planSplice_roll (n : Node) (x : Nat) (hr : isRole n .rewind = true) (hj : isJoined n = true) :
    (planSplice n x).roll =
      splicePlan n.roll (spliceStart n x) (addIn repeatRange x (1 + (cfg n).wasteAfter)) := by
  have h : planSplice n x = _ := if_pos ⟨hr, hj⟩
  rw [h]
  rfl

theorem planSplice_elsewhere (n : Node) (x : Nat) (h : isRole n .rewind = false ∨ isJoined n = false) : planSplice n x = n := by
  refine if_neg ?_
  rintro ⟨hr, hj⟩
  rcases h with h | h
  · rw [h] at hr
    cases hr
  · rw [h] at hj
    cases hj

theorem splicePlan_apart (u : RollUnit) (a b : Nat) (hp : ∀ pc, u.piece = some pc → pc.kind = .roll)
    (h : ∀ e ∈ u.plan, e.kind = .roll) : splicePlan u a b = agreePlan u a b := by
  unfold splicePlan
  rw [wasteRuns_rolls u hp h, uniteRuns_none]

/-- R157: the run in an empty plan. -/
theorem splicePlan_empty (u : RollUnit) (a b : Nat) (hp : ∀ pc, u.piece = some pc → pc.kind = .roll) (hne : a ≠ b)
    (hn : repeatNewer a b = false) (hplan : u.plan = []) :
    splicePlan u a b = { u with plan := [{ cut := a, reasons := { splice := true }, kind := .waste },
      { cut := b, reasons := { splice := true }, kind := .roll }] } := by
  have hrun : runEntered u a b = [{ cut := a, reasons := { splice := true }, kind := .waste },
      { cut := b, reasons := { splice := true }, kind := .roll }] := by
    unfold runEntered
    rw [hplan]
    show endEntered (startEntered u [] a) b { splice := true } = _
    rw [startEntered_empty u a (pieceStarts_roll u a hp)]
    exact endEntered_behind _ b _ hne hn
  rw [splicePlan_apart u a b hp (by rw [hplan]; simp), agreePlan_fits u a b (by rw [hrun]; exact (by decide : 2 ≤ 8)), hrun]

theorem splicePlan_at_start (u : RollUnit) (e : PlanEntry) (b : Nat) (hp : ∀ pc, u.piece = some pc → pc.kind = .roll)
    (hne : e.cut ≠ b) (hn : repeatNewer e.cut b = false) (hplan : u.plan = [e]) (hk : e.kind = .roll) :
    splicePlan u e.cut b = { u with plan := [{ e with kind := .waste, reasons := { e.reasons with splice := true } },
      { cut := b, reasons := { splice := true }, kind := .roll }] } := by
  have hself := repeatNewer_self e.cut
  have hrun : runEntered u e.cut b = [{ e with kind := .waste, reasons := { e.reasons with splice := true } },
      { cut := b, reasons := { splice := true }, kind := .roll }] := by
    have hout : outerPlan [e] e.cut b = [e] := by simp [outerPlan, hself]
    have hin : innerReasons [e] e.cut b = { splice := true } := by simp [innerReasons, hself]
    unfold runEntered
    rw [hplan, hout, hin, startEntered_roll u e (pieceStarts_roll u _ hp) hk]
    exact endEntered_behind _ b _ hne hn
  rw [splicePlan_apart u e.cut b hp (by rw [hplan]; simpa using hk),
    agreePlan_fits u e.cut b (by rw [hrun]; exact (by decide : 2 ≤ 8)), hrun]

theorem splicePlan_inside (u : RollUnit) (e : PlanEntry) (a b : Nat) (hp : ∀ pc, u.piece = some pc → pc.kind = .roll)
    (hne : a ≠ b) (hn : repeatNewer a b = false) (hplan : u.plan = [e]) (hk : e.kind = .roll)
    (h1 : repeatNewer e.cut a = true) (h2 : repeatNewer b e.cut = true) :
    splicePlan u a b = { u with plan := [{ cut := a, reasons := { splice := true }, kind := .waste },
      { cut := b, reasons := { e.reasons with full := false, splice := true }, kind := .roll }] } := by
  have hrun : runEntered u a b = [{ cut := a, reasons := { splice := true }, kind := .waste },
      { cut := b, reasons := { e.reasons with full := false, splice := true }, kind := .roll }] := by
    have hout : outerPlan [e] a b = [] := by simp [outerPlan, h1, h2]
    have hin : innerReasons [e] a b = { e.reasons with full := false, splice := true } := by
      simp [innerReasons, h1, h2, joinReasons]
    unfold runEntered
    rw [hplan, hout, hin, startEntered_empty u a (pieceStarts_roll u a hp)]
    exact endEntered_behind _ b _ hne hn
  rw [splicePlan_apart u a b hp (by rw [hplan]; simpa using hk),
    agreePlan_fits u a b (by rw [hrun]; exact (by decide : 2 ≤ 8)), hrun]

/-- R157: where eight entries leave no room the splice is refused. -/
theorem splicePlan_full (u : RollUnit) (a b : Nat) (hp : ∀ pc, u.piece = some pc → pc.kind = .roll) (hne : a ≠ b)
    (hlen : u.plan.length = 8) (h : ∀ e ∈ u.plan, e.kind = .roll ∧ e.cut ≠ a ∧ e.cut ≠ b ∧
      (repeatNewer e.cut a = false ∨ repeatNewer b e.cut = false)) :
    splicePlan u a b = { u with planRefusals := u.planRefusals + 1 } := by
  rw [splicePlan_apart u a b hp fun e he => (h e he).1, agreePlan_full u a b]
  rw [runEntered_length u a b (pieceStarts_roll u a hp) hne fun e he => (h e he).2, hlen]
  decide

/-- R157: the open WASTE piece that the run reaches begins it. -/
theorem splicePlan_united (u : RollUnit) (pc : OpenPiece) (a b : Nat) (hpc : u.piece = some pc) (hk : pc.kind = .waste)
    (hplan : u.plan = []) (hn : repeatNewer a pc.first = true) (hb : repeatAtOrAfter b pc.first = true) :
    splicePlan u a b = { u with plan := [{ cut := b, reasons := { splice := true }, kind := .roll }] } := by
  have hruns : wasteRuns u = [(pc.first, none)] := by
    unfold wasteRuns
    rw [hpc, hplan]
    simp [hk, runsOfPlan, entryAfter]
  have hstarts : pieceStarts u pc.first = true := by
    unfold pieceStarts
    rw [hpc]
    simp [hk]
  have hrun : runEntered u pc.first b = [{ cut := b, reasons := { splice := true }, kind := .roll }] := by
    unfold runEntered startEntered
    rw [hplan, hstarts]
    rfl
  unfold splicePlan
  rw [hruns, uniteRuns_open pc.first a b hn hb 9]
  exact (agreePlan_fits u pc.first b (by rw [hrun]; exact (by decide : 1 ≤ 8))).trans (by rw [hrun])

/-- The roll builder behind a REPEAT that is taken into a table with room. -/
theorem appendRepeat_roll (n : Node) (k : Nat) (p : RepeatPayload) (hk : heldAs n k .key = true)
    (hx : repeatTooOld n p.number = false) (hl : n.track.table.length < 512) :
    (appendRepeat n k p).roll = (splicePlanned (switchTested (appended n p) p) p).roll ∧
    (switchTested (appended n p) p).roll = n.roll ∧ (switchTested (appended n p) p).image = n.image ∧
    (switchTested (appended n p) p).st = n.st ∧ (switchTested (appended n p) p).track.here = n.track.here := by
  have hroom : madeRoom n = n := if_pos hl
  rw [appendRepeat_taken n k p hk hx, switchTested_eq]
  unfold appended
  rw [hroom]
  exact ⟨rfl, rfl, rfl, rfl, rfl⟩

theorem repeat_roll (o : Origin) (s : State) (p : RepeatPayload) (hh : HearsAnother o s)
    (hk : heldAs s.node o.sender .key = true) (hx : repeatTooOld s.node p.number = false)
    (hl : s.node.track.table.length < 512) :
    ((isRole s.node .rewind = false ∨ isJoined s.node = false ∨ p.splice = none) →
      (meaning (.repeat_ o p) s.node).roll = s.node.roll) ∧
    (∀ off, p.splice = some off → isRole s.node .rewind = true → isJoined s.node = true →
      (meaning (.repeat_ o p) s.node).roll = splicePlan s.node.roll (spliceStart s.node p.number)
        (addIn repeatRange p.number (1 + (cfg s.node).wasteAfter))) := by
  obtain ⟨hm, -, -⟩ := repeat_heard o s p hh
  rw [hm, holdSettle_roll]
  let m := heardNode s.node o (.repeat_ p)
  obtain ⟨hroll, hkeep, himg, hst, hhere⟩ := appendRepeat_roll m o.sender p ((repeat_key o s p hh).trans hk) hx hl
  let t := switchTested (appended m p) p
  have hrole : isRole t .rewind = isRole s.node .rewind := by
    unfold isRole
    rw [himg]
    rfl
  have hjoin : isJoined t = isJoined s.node := by
    unfold isJoined
    rw [hst]
    rfl
  have hcfg : cfg t = cfg s.node := by
    unfold cfg
    rw [himg]
    rfl
  have hstart : spliceStart t p.number = spliceStart s.node p.number := by
    unfold spliceStart
    rw [hhere, hcfg]
    rfl
  refine ⟨fun h => ?_, fun off hoff hr hj => ?_⟩
  · have hno : splicePlanned t p = t := by
      unfold splicePlanned
      cases hs : p.splice with
      | none => rfl
      | some off =>
        refine planSplice_elsewhere t _ ?_
        rw [hrole, hjoin]
        rcases h with h | h | h
        · exact Or.inl h
        · exact Or.inr h
        · rw [hs] at h
          cases h
    rw [hno] at hroll
    exact hroll.trans hkeep
  · have hyes : splicePlanned t p = planSplice t p.number := by
      unfold splicePlanned
      rw [hoff]
    rw [hyes, planSplice_roll t p.number (hrole.trans hr) (hjoin.trans hj), hkeep, hstart, hcfg] at hroll
    exact hroll

theorem splicesArePlanned : Claims.SplicesArePlanned := by
  intro o s p hh hk hx hl
  obtain ⟨hno, hyes⟩ := repeat_roll o s p hh hk hx hl
  refine ⟨fun h => after_meaning (hno h), fun off hoff hr hj => ?_⟩
  intro u a0 a b end_ hne hn
  have hroll : (meaning (.repeat_ o p) s.node).roll = splicePlan u a b := hyes off hoff hr hj
  refine ⟨fun hp => ⟨fun hplan => after_meaning ?_, fun e hplan hke he => after_meaning ?_,
    fun e hplan hke h1 h2 => after_meaning ?_, fun hlen he => after_meaning ?_⟩, fun pc hpc hkp hplan h1 h2 => after_meaning ?_⟩
  · exact hroll.trans (splicePlan_empty u a b hp hne hn hplan)
  · rw [← he] at hroll hne hn
    exact hroll.trans (splicePlan_at_start u e b hp hne hn hplan hke)
  · exact hroll.trans (splicePlan_inside u e a b hp hne hn hplan hke h1 h2)
  · exact hroll.trans (splicePlan_full u a b hp hne hlen he)
  · exact hroll.trans (splicePlan_united u pc a b hpc hkp hplan h1 h2)

/-- Settles O40: the record by `appendRepeat_track`, the eviction by `evictRecord_oldest`, the splice by the plans of `splicePlan`. -/
theorem repeatAppendsARecord : Obligations.RepeatAppendsARecord :=
  ⟨repeatIsAppended, fullTablesEvictTheOldest, splicesArePlanned⟩

end Sys2Proof.Proofs
end

/-! PROOFS. BATCH OPENED and BATCH FIXED (R128, R130, R135, R136), and the new batch at the Roll Builder (R160, R161). -/
section
namespace Sys2Proof.Proofs

open Sys2Proof.Machine Sys2Proof.Laws Sys2Proof.Claims

/-! ### What the Roll Builder does with a new batch -/

/-- `a` is `b` with changes of the Roll Builder and with offers. -/
structure RollOffers (a b : Node) : Prop where
  frame : a = { b with roll := a.roll, link := a.link }
  rest : linkRest a.link = linkRest b.link

theorem RollOffers.self (n : Node) : RollOffers n n := ⟨rfl, rfl⟩

theorem RollOffers.of_roll (n : Node) (u : RollUnit) : RollOffers { n with roll := u } n := ⟨rfl, rfl⟩

theorem RollOffers.trans {a b c : Node} (h1 : RollOffers a b) (h2 : RollOffers b c) : RollOffers a c := by
  refine ⟨?_, h1.rest.trans h2.rest⟩
  have hf := h1.frame
  rw [h2.frame] at hf
  exact hf

theorem offerAgain_rollOffers (n : Node) (t : Telegram) (r : Bool) (b : OfferBy) (o : Reoffer) :
    RollOffers (offerAgain n t r b o) n := by
  refine ⟨?_, offerAgain_linkRest n t r b o⟩
  have h := offerAgain_eq n t r b o
  generalize offerAgain n t r b o = k at h ⊢
  rw [h]

theorem offerRegrade_rollOffers (n : Node) (x : Nat) (ch : RollChange) : RollOffers (offerRegrade n x ch) n := by
  unfold offerRegrade
  split
  · exact .self n
  · exact offerAgain_rollOffers n _ _ _ _

theorem regradeListed_rollOffers (b r : Nat) (n : Node) (c : RollContent) : RollOffers (regradeListed b r n c) n := by
  unfold regradeListed
  split
  · exact .self n
  · exact offerRegrade_rollOffers n _ _

theorem regradeAll_rollOffers (b r : Nat) (l : List RollContent) (n : Node) : RollOffers (l.foldl (regradeListed b r) n) n := by
  induction l generalizing n with
  | nil => exact .self n
  | cons c cs ih => exact (ih _).trans (regradeListed_rollOffers b r n c)

theorem lateEntry_rollOffers (n : Node) (e : PlanEntry) (r h : Nat) : RollOffers (lateEntry n e r h) n := by
  unfold lateEntry
  split
  · exact .self n
  · exact .of_roll n _

theorem latePiece_rollOffers (n : Node) (p : OpenPiece) (r h : Nat) : RollOffers (latePiece n p r h) n := by
  unfold latePiece
  split
  · exact .self n
  · exact .of_roll n _

/-- R160, R161: a new batch changes the Roll Builder and makes offers, and nothing else. -/
theorem rollBatch_rollOffers (n : Node) (b r : Nat) : RollOffers (rollBatch n b r) n := by
  unfold rollBatch
  split
  · split
    · exact .of_roll n _
    · split
      · exact .of_roll n _
      · split
        · exact .self n
        · split
          · exact lateEntry_rollOffers n _ _ _
          · split
            · exact latePiece_rollOffers n _ _ _
            · exact (regradeAll_rollOffers b r _ _).trans (.of_roll n _)
  · exact .self n

/-! ### The batch list -/

/-- R135: the list with the new batch, its open entries closed. -/
def openedList (l : List BatchEntry) (p : BatchPayload) : List BatchEntry :=
  closeBatches (roomForBatch l) p.first ++
    [{ code := p.code, first := p.first, last := none, reference := none, state := .forming }]

/-- R135: the node whose list and records have taken the new batch. -/
def openedBatch (n : Node) (p : BatchPayload) : Node :=
  { recodeRecords n p.first p.code with batch := { n.batch with list := openedList n.batch.list p } }

theorem newBatch_other (n : Node) (p : BatchPayload) : newBatch n false p = rollBatch (openedBatch n p) p.code p.first := rfl

theorem newBatch_own (n : Node) (p : BatchPayload) (h : isRole n .shade = true) :
    newBatch n true p = rollBatch (setOwnBatch (openedBatch n p) p) p.code p.first := by
  have hs : newBatch n true p = rollBatch (if true = true ∧ isRole n .shade = true then setOwnBatch (openedBatch n p) p
    else openedBatch n p) p.code p.first := rfl
  rw [hs, if_pos ⟨rfl, h⟩]

theorem applyBatchOpened_unheld (n : Node) (k : Nat) (r own : Bool) (p : BatchPayload) (h : heldAs n k .shade = false) :
    applyBatchOpened n k r own p = n := if_pos (by rw [h]; rfl)

theorem applyBatchOpened_new (n : Node) (k : Nat) (r own : Bool) (p : BatchPayload) (hk : heldAs n k .shade = true)
    (hp : batchPresent n p.code = false) (ho : batchTooOld n p.first = false) :
    applyBatchOpened n k r own p = newBatch n own p := by
  unfold applyBatchOpened
  rw [if_neg (by rw [hk]; decide), if_neg (by rw [hp]; decide), if_neg (by rw [ho]; decide)]

/-- R135: outside a restate a batch that is listed, or whose first repeat is not newer, is set aside. -/
theorem applyBatchOpened_set_aside (n : Node) (k : Nat) (own : Bool) (p : BatchPayload)
    (h : batchPresent n p.code = true ∨ batchTooOld n p.first = true) : applyBatchOpened n k false own p = n := by
  unfold applyBatchOpened
  split
  · rfl
  · split
    · rfl
    · next hno =>
      rcases h with h | h
      · exact absurd h hno
      · exact if_pos h

theorem openedList_room (l : List BatchEntry) (p : BatchPayload) (h : l.length < 8) :
    openedList l p = closeBatches l p.first ++
      [{ code := p.code, first := p.first, last := none, reference := none, state := .forming }] := by
  unfold openedList roomForBatch
  rw [if_pos h]

/-! ### BATCH OPENED of another station -/

theorem batchOpened_held (o : Origin) (s : State) (p : BatchPayload) (hh : HearsAnother o s) :
    heldAs (heardNode s.node o (.batchOpened p)) o.sender .shade = heldAs s.node o.sender .shade :=
  heldAs_heard o s _ hh (fun _ h => by cases h) _ _

/-- A heard BATCH OPENED that opens a batch leaves what the Roll Builder makes of it. -/
theorem batchOpened_heard (o : Origin) (s : State) (p : BatchPayload) (hh : HearsAnother o s)
    (hk : heldAs s.node o.sender .shade = true) (hp : batchPresent s.node p.code = false)
    (ho : batchTooOld s.node p.first = false) :
    meaning (.batchOpened o p) s.node =
      holdSettle (clearFrame (rollBatch (openedBatch (heardNode s.node o (.batchOpened p)) p) p.code p.first)) ∧
    Heard o s (meaning (.batchOpened o p) s.node) := by
  have hr := rollBatch_rollOffers (openedBatch (heardNode s.node o (.batchOpened p)) p) p.code p.first
  have he := hr.frame
  obtain ⟨hm, hheard, -⟩ := hears o s (.batchOpened p) hh (fun _ h => by cases h)
    (rollBatch (openedBatch (heardNode s.node o (.batchOpened p)) p) p.code p.first)
    (applyBatchOpened_new _ _ _ _ _ ((batchOpened_held o s p hh).trans hk) hp ho) (by rw [he]; rfl) (by rw [he]; rfl)
    (by rw [he]; rfl) hr.rest
  rw [meaning, hm]
  exact ⟨rfl, hheard⟩

theorem batchOpenedEntersTheList : Claims.BatchOpenedEntersTheList := by
  intro o s p hh _
  refine ⟨fun hk hp ho hl => after_meaning ?_, fun hk => after_meaning ?_⟩
  · obtain ⟨hm, hheard⟩ := batchOpened_heard o s p hh hk hp ho
    refine ⟨hheard, ?_⟩
    rw [hm, holdSettle_batch, holdSettle_track]
    have hr := rollBatch_rollOffers (openedBatch (heardNode s.node o (.batchOpened p)) p) p.code p.first
    obtain ⟨-, -, hnewest, -⟩ :=
      settled_newest (rollBatch (openedBatch (heardNode s.node o (.batchOpened p)) p) p.code p.first)
    obtain ⟨-, -, -, -, -, -, -, -, hrest, -⟩ := linkRest_fields hr.rest
    refine ⟨?_, ?_, ?_⟩
    · rw [hnewest, hrest]
      rfl
    · rw [hr.frame]
      exact openedList_room s.node.batch.list p hl
    · rw [hr.frame]
      rfl
  · obtain ⟨hm, -⟩ := hears o s (.batchOpened p) hh (fun _ h => by cases h) (heardNode s.node o (.batchOpened p))
      (applyBatchOpened_unheld _ _ _ _ _ ((batchOpened_held o s p hh).trans hk)) rfl rfl rfl rfl
    rw [meaning, hm, holdSettle_batch, holdSettle_track, holdSettle_roll]
    exact ⟨rfl, rfl, rfl⟩

/-- R136: the list behind a BATCH FIXED. -/
def fixedList (n : Node) (k : Nat) (p : BatchPayload) (t : Triple) : List BatchEntry :=
  if heldAs n k .shade then n.batch.list.map fun b =>
    if b.code = p.code then { b with reference := some t, state := if b.state = .forming then .fixed else b.state } else b
  else n.batch.list

theorem applyBatchFixed_eq (n : Node) (k : Nat) (p : BatchPayload) (t : Triple) :
    applyBatchFixed n k p t = { n with batch := { n.batch with list := fixedList n k p t } } := by
  unfold applyBatchFixed fixedList
  split <;> rfl

theorem batchFixedWritesTheReference : Claims.BatchFixedWritesTheReference := by
  intro o s p t hh
  refine after_meaning ?_
  obtain ⟨hm, hheard, -⟩ := hears o s (.batchFixed p t) hh (fun _ h => by cases h) _
    (applyBatchFixed_eq (heardNode s.node o (.batchFixed p t)) o.sender p t) rfl rfl rfl rfl
  have hk : heldAs (heardNode s.node o (.batchFixed p t)) o.sender .shade = heldAs s.node o.sender .shade :=
    heldAs_heard o s _ hh (fun _ h => by cases h) _ _
  have hlist : fixedList (heardNode s.node o (.batchFixed p t)) o.sender p t = fixedList s.node o.sender p t := by
    unfold fixedList
    rw [hk]
    rfl
  rw [hlist] at hm hheard
  rw [meaning, hm]
  refine ⟨hheard, fun hs => ?_, fun hs => ?_, ?_⟩
  · rw [holdSettle_batch]
    have hl : fixedList s.node o.sender p t = _ := if_pos hs
    rw [hl]
    rfl
  · rw [holdSettle_batch]
    have hl : fixedList s.node o.sender p t = s.node.batch.list := if_neg (by rw [hs]; decide)
    rw [hl]
    rfl
  · have h0 := holdSettle_eq (clearFrame { heardNode s.node o (.batchFixed p t) with
      batch := { (heardNode s.node o (.batchFixed p t)).batch with list := fixedList s.node o.sender p t } })
    generalize holdSettle (clearFrame { heardNode s.node o (.batchFixed p t) with
      batch := { (heardNode s.node o (.batchFixed p t)).batch with list := fixedList s.node o.sender p t } }) = k at h0 ⊢
    rw [h0]
    rfl

/-! ### The new batch at the REWIND node -/

/-- R161: what a late batch makes of a closed piece. -/
def lateRoll (b r : Nat) (c : RollContent) : RollContent :=
  match lateChange b r c with
  | some ch => changeRoll c ch
  | none => c

theorem lateRoll_eq (b r : Nat) (c : RollContent) :
    lateRoll b r c =
      if c.kind = .waste ∨ repeatAtOrAfter (lastIn repeatRange c.first c.count) r = false then c
      else if repeatAtOrAfter c.first r then { c with batch := b }
      else { c with grade := .hold, causes := c.causes ||| 0x200 } := by
  unfold lateRoll lateChange
  by_cases h : c.kind = .waste ∨ repeatAtOrAfter (lastIn repeatRange c.first c.count) r = false
  · rw [if_pos h, if_pos (by simpa using h)]
  · rw [if_neg h, if_neg (by simpa using h)]
    cases repeatAtOrAfter c.first r
    · rfl
    · simp [changeRoll, rollCause]

theorem rollBatch_newer (n : Node) (b r : Nat) (hr : isRole n .rewind = true) (hj : isJoined n = true)
    (h : n.track.here = none ∨ ∃ x, n.track.here = some x ∧ repeatNewer r x = true) :
    rollBatch n b r = { n with roll := placeCut n.roll r { batch := true } } := by
  unfold rollBatch
  rw [if_pos ⟨hr, hj⟩]
  rcases h with h | ⟨x, h, hx⟩
  · rw [h]
  · rw [h]
    exact if_pos hx

/-- R160: a batch that begins at or before here, by the piece that is open. -/
theorem rollBatch_passed (n : Node) (b r h : Nat) (hr : isRole n .rewind = true) (hj : isJoined n = true)
    (hh : n.track.here = some h) (hx : repeatNewer r h = false) :
    (n.roll.piece = none → rollBatch n b r = n) ∧
    (∀ pc, n.roll.piece = some pc → (∀ e ∈ n.roll.plan, e.arming = none) →
      rollBatch n b r = if repeatAtOrAfter r pc.first then latePiece n pc r h else lateBatch n b r) := by
  have hbase : rollBatch n b r = (match n.roll.piece with
      | none => n
      | some p =>
        match (n.roll.plan.filter fun e => e.arming.isSome && repeatAtOrAfter r e.cut).getLast? with
        | some e => lateEntry n e r h
        | none => if repeatAtOrAfter r p.first then latePiece n p r h else lateBatch n b r) := by
    unfold rollBatch
    rw [if_pos ⟨hr, hj⟩, hh]
    exact if_neg (by rw [hx]; decide)
  refine ⟨fun hp => ?_, fun pc hp ha => ?_⟩
  · rw [hbase, hp]
  · have hnone : (n.roll.plan.filter fun e => e.arming.isSome && repeatAtOrAfter r e.cut) = [] := by
      rw [List.filter_eq_nil_iff]
      intro e he
      simp [ha e he]
    rw [hbase, hp, hnone]
    rfl

/-- R161: one listed piece that a late batch reaches is offered again, with nothing else waiting. -/
theorem lateBatch_one (n : Node) (b r : Nat) (c : RollContent) (hl : n.roll.list = [c]) (hk : c.kind = .roll)
    (hr : repeatAtOrAfter (lastIn repeatRange c.first c.count) r = true) (hj : isJoined n = true) (hq : n.link.queue = [])
    (ho : n.link.refusedOffers = []) :
    (lateBatch n b r).roll = { n.roll with
      awaiting := n.roll.awaiting.map (lateRoll b r),
      lateDecisions := n.roll.lateDecisions + (if repeatNewer c.first r then 1 else 0) } ∧
    ∃ q ∈ (lateBatch n b r).link.queue, q.telegram = .roll (lateRoll b r c) ∧ q.restate = true := by
  obtain ⟨ch, hch⟩ : ∃ ch, lateChange b r c = some ch := by
    unfold lateChange
    rw [if_neg (by rw [hk, hr]; decide)]
    split <;> exact ⟨_, rfl⟩
  have hroll : lateRoll b r c = changeRoll c ch := by
    unfold lateRoll
    rw [hch]
  have hbeyond : beyondList n.roll r = repeatNewer c.first r := by
    unfold beyondList
    rw [hl]
    rfl
  let m : Node := { n with roll := { n.roll with
    awaiting := n.roll.awaiting.map (lateRoll b r),
    lateDecisions := n.roll.lateDecisions + (if repeatNewer c.first r then 1 else 0) } }
  have hm : m = { n with roll := { n.roll with
    awaiting := n.roll.awaiting.map (lateRoll b r),
    lateDecisions := n.roll.lateDecisions + (if repeatNewer c.first r then 1 else 0) } } := rfl
  have hlate : lateBatch n b r = offerRegrade m c.number ch := by
    have hdef : lateBatch n b r = n.roll.list.foldl (regradeListed b r) { n with roll := { n.roll with
      awaiting := n.roll.awaiting.map (lateRoll b r),
      lateDecisions := n.roll.lateDecisions + (if beyondList n.roll r then 1 else 0) } } := rfl
    rw [hdef, hbeyond, ← hm, hl]
    show regradeListed b r m c = _
    unfold regradeListed
    rw [hch]
  have hdown : downQueued m = false := by
    unfold downQueued
    have hmq : m.link.queue = [] := hq
    rw [hmq]
    rfl
  have hfind : (m.roll.list.find? fun x => decide (x.number = c.number)) = some c := by
    have hml : m.roll.list = [c] := hl
    rw [hml]
    simp
  have hoffer : offerRegrade m c.number ch = { m with link := { m.link with queue := m.link.queue ++
      [{ telegram := .roll (changeRoll c ch), restate := true, offerBy := .regrade ch }] } } := by
    unfold offerRegrade
    rw [hfind]
    dsimp only
    rw [pendingChange_empty m c.number ch hq ho,
      offerAgain_joined m _ _ _ _ hj hdown (by rw [show m.link.queue = [] from hq]; decide)]
  rw [hlate, hoffer, hroll]
  exact ⟨rfl, _, List.mem_append_right _ (List.mem_singleton_self _), rfl, rfl⟩

theorem newBatchesReachTheBuilder : Claims.NewBatchesReachTheBuilder := by
  intro o s p hh hk hpres hold hr hj
  obtain ⟨hm, -⟩ := batchOpened_heard o s p hh hk hpres hold
  let m := openedBatch (heardNode s.node o (.batchOpened p)) p
  intro u
  have hroll : (meaning (.batchOpened o p) s.node).roll = (rollBatch m p.code p.first).roll := by
    rw [hm, holdSettle_roll]
    rfl
  refine ⟨fun h => after_meaning ?_, fun h hhere hx => ?_⟩
  · rw [hroll, rollBatch_newer m p.code p.first hr hj h]
    rfl
  · obtain ⟨hnone, hsome⟩ := rollBatch_passed m p.code p.first h hr hj hhere hx
    refine ⟨fun hp => after_meaning ?_, fun pc hp ha => ?_⟩
    · rw [hroll, hnone hp]
      rfl
    · have hpassed := hsome pc hp ha
      refine ⟨fun hb => after_meaning ?_, fun hn hne hkind => after_meaning ?_, fun c hbefore hl hkind hlast hq ho => ?_⟩
      · have hat : repeatAtOrAfter p.first pc.first = true := by
          rcases hb with hb | hb
          · rw [hb]
            simp [repeatAtOrAfter, atOrAfter]
          · exact hb.1
        have hstay : latePiece m pc p.first h = m := by
          refine if_pos ?_
          rcases hb with hb | hb
          · exact Or.inl hb.symm
          · exact Or.inr hb.2
        rw [hroll, hpassed, if_pos hat, hstay]
        rfl
      · have hat : repeatAtOrAfter p.first pc.first = true := by
          unfold repeatAtOrAfter atOrAfter
          rw [show newer repeatRange p.first pc.first = true from hn, Bool.or_true]
        have hlate : latePiece m pc p.first h = _ := if_neg (by
          rintro (hc | hc)
          · exact hne hc.symm
          · rw [hkind] at hc
            cases hc)
        rw [hroll, hpassed, if_pos hat, hlate]
        rfl
      · intro changed
        refine after_meaning ?_
        obtain ⟨h1, q, hqm, hqt, hqr⟩ := lateBatch_one m p.code p.first c hl hkind hlast hj hq ho
        have hb : rollBatch m p.code p.first = lateBatch m p.code p.first := by
          rw [hpassed, if_neg (by rw [hbefore]; decide)]
        have hchanged : changed = lateRoll p.code p.first := by
          funext x
          exact (lateRoll_eq p.code p.first x).symm
        rw [hb] at hm hroll
        rw [hchanged]
        refine ⟨hroll.trans h1, q, ?_, hqt, hqr⟩
        rw [hm]
        refine holdSettle_keeps_entry _ q hqm ?_
        rw [hqt]
        rfl

/-! ### The own BATCH OPENED -/

/-- What the forming of the own batch keeps. -/
structure Formed (a b : Node) : Prop where
  image : a.image = b.image
  list : a.batch.list = b.batch.list
  inOffer : a.batch.inOffer = b.batch.inOffer
  rest : linkRest a.link = linkRest b.link

theorem Formed.self (n : Node) : Formed n n := ⟨rfl, rfl, rfl, rfl⟩

theorem Formed.trans {a b c : Node} (h1 : Formed a b) (h2 : Formed b c) : Formed a c :=
  ⟨h1.image.trans h2.image, h1.list.trans h2.list, h1.inOffer.trans h2.inOffer, h1.rest.trans h2.rest⟩

/-- R130: the batch that a sixteenth mean triple fixes, whatever the pattern of its tolerance. -/
theorem fixOwn_fixed (n : Node) (b : OwnBatch) : Formed (fixOwn n b) n ∧ ∃ ref tol,
    (fixOwn n b).batch.own = some { b with phase := .fixed, reference := ref, tolerance := tol } := by
  unfold fixOwn offerFixed
  dsimp only
  constructor
  refine ⟨?_, ?_, ?_, ?_⟩
  · rw [offerAgain_image]
    split <;> rfl
  · rw [offerAgain_batch]
    split <;> rfl
  · rw [offerAgain_batch]
    split <;> rfl
  · rw [offerAgain_linkRest]
    split <;> rfl
  · rw [offerAgain_batch]
    exact ⟨_, _, rfl⟩

theorem formMean_formed (n : Node) (t : Triple) : Formed (formMean n t) n := by
  unfold formMean
  split
  · exact .self n
  · split
    · dsimp only
      split
      · exact ⟨rfl, rfl, rfl, rfl⟩
      · exact (fixOwn_fixed n _).1
    · exact .self n

/-- One seed of the forming batch. -/
def seedOne (m : Node) (g : Graded) : Node :=
  match g.mean with
  | some t => formMean m t
  | none => m

theorem seedOne_formed (n : Node) (g : Graded) : Formed (seedOne n g) n := by
  unfold seedOne
  split
  · exact formMean_formed n _
  · exact .self n

theorem seeds_formed (l : List Graded) (n : Node) : Formed (l.foldl seedOne n) n := by
  induction l generalizing n with
  | nil => exact .self n
  | cons g gs ih => exact (ih _).trans (seedOne_formed n g)

/-- R130: the own batch of `p` after `k` mean triples. -/
def FormedFrom (p : BatchPayload) (k : Nat) (n : Node) : Prop :=
  ∃ b, n.batch.own = some b ∧ b.code = p.code ∧ b.first = p.first ∧ b.reason = p.reason ∧ b.count = k ∧
    (b.phase = .fixed ↔ k = 16)

theorem seedOne_formedFrom (p : BatchPayload) (k : Nat) (n : Node) (g : Graded) (hk : k < 16) (h : FormedFrom p k n)
    (hg : g.mean.isSome = true) : FormedFrom p (k + 1) (seedOne n g) := by
  obtain ⟨b, hb, hcode, hfirst, hreason, hcount, hphase⟩ := h
  obtain ⟨t, ht⟩ := Option.isSome_iff_exists.1 hg
  have hform : b.phase = .forming := by
    cases hp : b.phase with
    | forming => rfl
    | fixed =>
      have h16 := hphase.1 hp
      omega
  have hseed : seedOne n g = formMean n t := by
    unfold seedOne
    rw [ht]
  rw [hseed, formMean_forming n b t hb hform]
  split
  · refine ⟨_, rfl, hcode, hfirst, hreason, congrArg (· + 1) hcount, fun h => ?_, fun h => ?_⟩
    · exact absurd (hform.symm.trans h) (by decide)
    · omega
  · obtain ⟨-, ref, tol, hfix⟩ := fixOwn_fixed n { b with sums := addTriple b.sums t, count := b.count + 1 }
    exact ⟨_, hfix, hcode, hfirst, hreason, congrArg (· + 1) hcount, fun _ => by omega, fun _ => rfl⟩

theorem seeds_formedFrom (p : BatchPayload) (l : List Graded) (k : Nat) (n : Node) (hk : k + l.length ≤ 16)
    (h : FormedFrom p k n) (hg : ∀ g ∈ l, g.mean.isSome = true) : FormedFrom p (k + l.length) (l.foldl seedOne n) := by
  induction l generalizing k n with
  | nil => exact h
  | cons g gs ih =>
    rw [List.length_cons] at hk ⊢
    have hone := seedOne_formedFrom p k n g (by omega) h (hg g (List.mem_cons_self ..))
    have hall := ih (k + 1) (seedOne n g) (by omega) hone fun x hx => hg x (List.mem_cons_of_mem _ hx)
    rw [show k + (gs.length + 1) = k + 1 + gs.length by omega]
    exact hall

/-- R135: the own batch before its seeds. -/
def freshBatch (p : BatchPayload) : OwnBatch :=
  { code := p.code, first := p.first, reason := p.reason, phase := .forming, sums := zeroTriple, count := 0,
    reference := zeroTriple, tolerance := zeroTriple }

def freshNode (n : Node) (p : BatchPayload) : Node := { n with batch := { n.batch with own := some (freshBatch p) } }

theorem setOwnBatch_seeds (n : Node) (p : BatchPayload) :
    setOwnBatch n p = (seedRepeats n.batch p.first).foldl seedOne (freshNode n p) := rfl

theorem seedRepeats_length (u : BatchUnit) (r : Nat) : (seedRepeats u r).length ≤ 16 := List.length_take_le _ _

/-- The SHADE node whose own opening has completed. -/
theorem ownOpened_meaning (s : State) (p : BatchPayload) (h : Sends s (.batchOpened p) .opened) (a : Node)
    (ha : applyBatchOpened (ownNode s.node (.batchOpened p)) (cfg s.node).station false true p = a) :
    meaning (.batchOpened (ownOrigin s) p) s.node =
      holdSettle (clearFrame { a with batch := { a.batch with inOffer := a.batch.inOffer - 1 } }) := by
  rw [← ha]
  exact completeFrame_sent s (.batchOpened p) .opened h rfl rfl

/-- R160: a SHADE node has no Roll Builder. -/
theorem rollBatch_shade (n : Node) (b r : Nat) (h : isRole n .shade = true) : rollBatch n b r = n := by
  have hno : isRole n .rewind = false := by
    unfold isRole at h ⊢
    cases hi : n.image with
    | none => rfl
    | some c =>
      rw [hi] at h
      have hc : c.role = .shade := by simpa using h
      simp [hc]
  exact if_neg (by rw [hno]; rintro ⟨h, -⟩; cases h)

theorem ownOpenedSetsTheOwnBatch : Claims.OwnOpenedSetsTheOwnBatch := by
  intro s p hsends hrole hheld seeds
  let m := ownNode s.node (.batchOpened p)
  refine ⟨fun hpres hold hlen => after_meaning ?_, fun haside => after_meaning ?_⟩
  · let f := freshNode (openedBatch m p) p
    let a := seeds.foldl seedOne f
    have ha : a = seeds.foldl seedOne f := rfl
    have hformed : Formed a f := seeds_formed seeds f
    have himg : isRole a .shade = true := by
      unfold isRole
      rw [hformed.image]
      exact hrole
    have happ : applyBatchOpened m (cfg s.node).station false true p = a := by
      rw [applyBatchOpened_new m _ _ _ p hheld hpres hold, newBatch_own m p hrole, setOwnBatch_seeds]
      exact rollBatch_shade a p.code p.first himg
    rw [ownOpened_meaning s p hsends a happ]
    refine ⟨?_, ?_, ?_, fun hnil => ?_, fun hall => ?_⟩
    · rw [holdSettle_batch]
      exact congrArg (· - 1) hformed.inOffer
    · rw [settled_sending]
      obtain ⟨-, -, -, hs, -⟩ := linkRest_fields hformed.rest
      exact hs
    · rw [holdSettle_batch]
      exact hformed.list.trans (openedList_room s.node.batch.list p hlen)
    · rw [holdSettle_batch]
      have haf : a = f := by
        rw [ha, hnil]
        rfl
      show a.batch.own = _
      rw [haf]
      rfl
    · rw [holdSettle_batch]
      have h0 : FormedFrom p 0 f := ⟨freshBatch p, rfl, rfl, rfl, rfl, rfl, iff_of_false BatchPhase.noConfusion (by decide)⟩
      have hlen16 : 0 + seeds.length ≤ 16 := by
        rw [Nat.zero_add]
        exact seedRepeats_length s.node.batch p.first
      have hk := seeds_formedFrom p seeds 0 f hlen16 h0 hall
      rw [Nat.zero_add] at hk
      exact hk
  · rw [ownOpened_meaning s p hsends m (applyBatchOpened_set_aside m _ _ p haside), holdSettle_batch]
    exact ⟨rfl, rfl, rfl⟩

/-- Settles O42: another station's opening by `rollBatch_rollOffers`, at the REWIND node by where the batch begins, the own one by
its seeds. -/
theorem batchTelegramsKeepTheList : Obligations.BatchTelegramsKeepTheList :=
  ⟨batchOpenedEntersTheList, batchFixedWritesTheReference, newBatchesReachTheBuilder, ownOpenedSetsTheOwnBatch⟩

end Sys2Proof.Proofs
end

/-! PROOFS. ROLL and LABELLED (R169 to R172), the cut plan (R156) and the Roll Builder at a match report (R158, R159, R164). -/
section
namespace Sys2Proof.Proofs

open Sys2Proof.Machine Sys2Proof.Laws Sys2Proof.Claims

/-! ### What the clearing of a hold writes -/

/-- `a` is `b` with changes of the Hold Unit, with offers and at the port. -/
structure HoldOffers (a b : Node) : Prop where
  frame : a = { b with hold := a.hold, link := a.link, port := a.port }
  list : a.hold.list = b.hold.list
  rest : linkRest a.link = linkRest b.link

theorem HoldOffers.self (n : Node) : HoldOffers n n := ⟨rfl, rfl, rfl⟩

theorem clearHold_holdOffers (n : Node) (m : Nat) : HoldOffers (clearHold n m) n := by
  refine ⟨eq_of_sansHold (sansHold_clearHold n m), ?_, ?_⟩
  · unfold clearHold
    split
    · rfl
    · unfold holdOfferWanted
      rw [(holdAbsorb_records _).1, (holdOffer_records _).1, setHoldState_hold]
  · unfold clearHold
    split
    · rfl
    · rw [holdOfferWanted_linkRest, setHoldState_link]

theorem rollClears_holdOffers (n : Node) (l : Nat) : HoldOffers (rollClears n l) n := by
  unfold rollClears
  split
  · split
    · exact clearHold_holdOffers n l
    · exact .self n
  · exact .self n

/-! ### The roll list -/

/-- R170: the node whose run has left the records. -/
def rollStored (n : Node) (p : RollContent) : Node := retireRun (storeRoll n p) p.first p.count

theorem applyRoll_unheld (n : Node) (k : Nat) (r g : Bool) (p : RollContent) (h : heldAs n k .rewind = false) :
    applyRoll n k r g p = n := if_pos (by rw [h]; rfl)

theorem applyRoll_clash (n : Node) (k : Nat) (g : Bool) (p : RollContent) (h : rollClashes n.roll.list p = true) :
    applyRoll n k false g p = n := by
  unfold applyRoll
  rw [if_neg (fun hd : false = true ∧ _ => Bool.false_ne_true hd.1), if_pos h]
  exact ite_self n

theorem applyRoll_stored (n : Node) (k : Nat) (g : Bool) (p : RollContent) (hk : heldAs n k .rewind = true)
    (hc : rollClashes n.roll.list p = false) :
    applyRoll n k false g p =
      retireHolds (rollClears (rollStored n p) (lastIn repeatRange p.first p.count)) (lastIn repeatRange p.first p.count) := by
  unfold applyRoll
  rw [if_neg (by rw [hk]; decide), if_neg (fun h => Bool.false_ne_true h.1), if_neg (by rw [hc]; decide)]
  rfl

/-- R147, R152: behind the stored roll only the Hold Unit changes. -/
theorem applyRoll_frame (n : Node) (k : Nat) (g : Bool) (p : RollContent) (hk : heldAs n k .rewind = true)
    (hc : rollClashes n.roll.list p = false) :
    applyRoll n k false g p = { rollStored n p with
      hold := (applyRoll n k false g p).hold, link := (applyRoll n k false g p).link,
      port := (applyRoll n k false g p).port } ∧
    linkRest (applyRoll n k false g p).link = linkRest (rollStored n p).link := by
  have hr := rollClears_holdOffers (rollStored n p) (lastIn repeatRange p.first p.count)
  rw [applyRoll_stored n k g p hk hc]
  refine ⟨?_, hr.rest⟩
  have hf := hr.frame
  generalize rollClears (rollStored n p) (lastIn repeatRange p.first p.count) = m at hf ⊢
  unfold retireHolds
  rw [hf]

/-- R170: the list of a node other than LABEL with the roll in it. -/
def storedList (l : List RollContent) (p : RollContent) : List RollContent :=
  if l.any (fun c => decide (c.number = p.number)) then l.map fun c => if c.number = p.number then p else c
  else (if l.length < 16 then l else l.tail) ++ [p]

theorem storeRoll_other (n : Node) (p : RollContent) (h : labelWorks n = false) :
    storeRoll n p = { n with roll := { n.roll with list := storedList n.roll.list p } } := by
  have hroom : roomForRoll n = { n with roll := { n.roll with
      list := if n.roll.list.length < 16 then n.roll.list else n.roll.list.tail } } := by
    unfold roomForRoll
    split
    · next c rest hl =>
      by_cases hlen : n.roll.list.length < 16
      · rw [if_pos hlen, if_pos hlen]
      · rw [if_neg hlen, if_neg hlen, if_neg (by rw [h]; decide), hl]
        rfl
    · next hl =>
      have hlen : n.roll.list.length < 16 := by
        rw [hl]
        decide
      rw [if_pos hlen]
  unfold storeRoll storedList inRollList
  by_cases hin : (n.roll.list.any fun c => decide (c.number = p.number)) = true
  · rw [if_pos hin, if_pos hin]
  · rw [if_neg hin, if_neg hin, hroom]
    refine if_neg ?_
    intro hw
    exact Bool.false_ne_true (h.symm.trans hw)

/-- R176: a new roll of the JOINED LABEL node, with room in the list, waits for its arrival. -/
theorem storeRoll_label (n : Node) (p : RollContent) (h : labelWorks n = true) (hin : inRollList n p.number = false)
    (hl : n.roll.list.length < 16) :
    storeRoll n p = setDisposition { n with roll := { n.roll with list := n.roll.list ++ [p] } } p.number
      (.waiting (n.now + 1000 * (cfg n).conveyorLimit)) := by
  have hroom : roomForRoll n = n := by
    unfold roomForRoll
    split
    · exact if_pos hl
    · rfl
  unfold storeRoll
  rw [if_neg (by rw [hin]; decide), hroom]
  exact if_pos h

theorem dispositionOf_set (n : Node) (x : Nat) (d : Disposition) : dispositionOf (setDisposition n x d) x = some d := by
  have hnone : ((n.label.disps.filter fun y => decide (y.1 ≠ x)).find? fun y => decide (y.1 = x)) = none := by
    rw [List.find?_eq_none]
    intro y hy
    simpa using (List.mem_filter.1 hy).2
  have hf : ((setDisposition n x d).label.disps.find? fun y => decide (y.1 = x)) = some (x, d) := by
    show (((n.label.disps.filter fun y => decide (y.1 ≠ x)) ++ [(x, d)]).find? fun y => decide (y.1 = x)) = _
    rw [List.find?_append, hnone]
    simp
  unfold dispositionOf
  rw [hf]
  rfl

theorem labelWorks_other (n : Node) (h : isRole n .label = false) : labelWorks n = false := by
  unfold labelWorks
  rw [h]
  rfl

/-! ### ROLL and LABELLED of another station -/

theorem roll_held (o : Origin) (s : State) (p : RollContent) (hh : HearsAnother o s) :
    heldAs (heardNode s.node o (.roll p)) o.sender .rewind = heldAs s.node o.sender .rewind :=
  heldAs_heard o s _ hh (fun _ h => by cases h) _ _

/-- A heard ROLL that is taken leaves the stored roll, whatever its Hold Unit clears. -/
theorem roll_heard (o : Origin) (s : State) (p : RollContent) (hh : HearsAnother o s) (hr : o.restate = false)
    (hk : heldAs s.node o.sender .rewind = true) (hc : rollClashes s.node.roll.list p = false)
    (u : RollUnit) (l : LabelUnit)
    (hst : storeRoll (heardNode s.node o (.roll p)) p = { heardNode s.node o (.roll p) with roll := u, label := l }) :
    Heard o s (meaning (.roll o p) s.node) ∧
    (meaning (.roll o p) s.node).link.newestRoll = raiseNumber rollRange s.node.link.newestRoll p.number ∧
    (meaning (.roll o p) s.node).roll = u ∧ (meaning (.roll o p) s.node).label = l ∧
    (meaning (.roll o p) s.node).track.table =
      s.node.track.table.filter fun r => !inRun repeatRange p.first p.count r.number := by
  let m := heardNode s.node o (.roll p)
  have happ : handOver m o false false (.roll p) = applyRoll m o.sender false false p := by
    show applyRoll m o.sender o.restate false p = _
    rw [hr]
  obtain ⟨hframe, hrest⟩ := applyRoll_frame m o.sender false p ((roll_held o s p hh).trans hk) hc
  have hstored : rollStored m p = { m with
      roll := u, label := l,
      track := { m.track with table := m.track.table.filter fun r => !inRun repeatRange p.first p.count r.number } } := by
    unfold rollStored
    rw [hst]
    rfl
  rw [hstored] at hframe hrest
  obtain ⟨hc, hheard, -⟩ := hears o s (.roll p) hh (fun _ h => by cases h) _ happ (by rw [hframe]; rfl) (by rw [hframe]; rfl)
    (by rw [hframe]; rfl) hrest
  obtain ⟨-, hnewest, -⟩ := settled_newest (applyRoll m o.sender false false p)
  obtain ⟨-, -, -, -, -, -, -, hn, -⟩ := linkRest_fields hrest
  rw [meaning, hc]
  refine ⟨hheard, ?_, ?_, ?_, ?_⟩
  · rw [hnewest, hn]
    rfl
  · rw [holdSettle_roll, hframe]
    rfl
  · rw [holdSettle_label, hframe]
    rfl
  · rw [holdSettle_track, hframe]
    rfl

theorem rollEntersTheList : Claims.RollEntersTheList := by
  intro o s p hh hr
  refine ⟨fun hrole hk hc => after_meaning ?_, fun hrole hj hk hc hin hl => after_meaning ?_, fun hk => after_meaning ?_⟩
  · obtain ⟨h1, h2, h3, -, h5⟩ := roll_heard o s p hh hr hk hc _ _
      (storeRoll_other (heardNode s.node o (.roll p)) p (labelWorks_other _ hrole))
    rw [h3]
    exact ⟨h1, h2, rfl, h5⟩
  · have hw : labelWorks (heardNode s.node o (.roll p)) = true := by
      show (isRole s.node .label && isJoined s.node) = true
      rw [hrole, hj]
      rfl
    have hst := storeRoll_label (heardNode s.node o (.roll p)) p hw hin hl
    obtain ⟨h1, -, h3, h4, -⟩ := roll_heard o s p hh hr hk hc { s.node.roll with list := s.node.roll.list ++ [p] } _ hst
    have hd := dispositionOf_set { heardNode s.node o (.roll p) with
      roll := { s.node.roll with list := s.node.roll.list ++ [p] } } p.number
      (.waiting (s.node.now + 1000 * (cfg s.node).conveyorLimit))
    refine ⟨h1, ?_, ?_⟩
    · rw [h3]
    · unfold dispositionOf at hd ⊢
      rw [h4]
      exact hd
  · have happ : handOver (heardNode s.node o (.roll p)) o false false (.roll p) = heardNode s.node o (.roll p) :=
      applyRoll_unheld _ _ _ _ _ ((roll_held o s p hh).trans hk)
    obtain ⟨hc, -⟩ := hears o s (.roll p) hh (fun _ h => by cases h) _ happ rfl rfl rfl rfl
    rw [meaning, hc, holdSettle_roll, holdSettle_track, (holdSettle_records _).1]
    exact ⟨rfl, rfl, rfl⟩

theorem applyLabelled_eq (n : Node) (k x : Nat) (out : LabelOutcome) :
    applyLabelled n k x out = { n with
      roll := (applyLabelled n k x out).roll, label := (applyLabelled n k x out).label } := by
  unfold applyLabelled
  split <;> rfl

theorem applyLabelled_set_aside (n : Node) (k x : Nat) (out : LabelOutcome) (h : heldAs n k .label = false ∨ x = 0) :
    applyLabelled n k x out = n := by
  refine if_neg ?_
  rintro ⟨h1, h2⟩
  rcases h with h | h
  · exact Bool.false_ne_true (h.symm.trans h1)
  · exact h2 h

theorem applyLabelled_roll (n : Node) (k x : Nat) (out : LabelOutcome) (hk : heldAs n k .label = true) (hx : x ≠ 0) :
    (applyLabelled n k x out).roll = { n.roll with
      departed := (n.roll.departed ++ [(x, out)]).drop (n.roll.departed.length + 1 - 16),
      list := n.roll.list.filter fun c => decide (c.number ≠ x) } := by
  have hlen : (n.roll.departed ++ [(x, out)]).length = n.roll.departed.length + 1 := by simp
  unfold applyLabelled
  rw [if_pos ⟨hk, hx⟩]
  dsimp only
  rw [hlen]
  rfl

theorem labelledRollsDepart : Claims.LabelledRollsDepart := by
  intro o s x out hh
  refine after_meaning ?_
  let m := heardNode s.node o (.labelled x out)
  have he := applyLabelled_eq m o.sender x out
  have hk : heldAs m o.sender .label = heldAs s.node o.sender .label := heldAs_heard o s _ hh (fun _ h => by cases h) _ _
  obtain ⟨hm, hheard, -⟩ := hears o s (.labelled x out) hh (fun _ h => by cases h) (applyLabelled m o.sender x out) rfl
    (by rw [he]; rfl) (by rw [he]; rfl) (by rw [he]; rfl) (by rw [he]; rfl)
  rw [meaning, hm]
  refine ⟨hheard, fun hh' hx => ?_, fun hno => ?_, ?_⟩
  · rw [holdSettle_roll]
    have hroll := applyLabelled_roll m o.sender x out (hk.trans hh') hx
    have hc : (clearFrame (applyLabelled m o.sender x out)).roll = (applyLabelled m o.sender x out).roll := rfl
    rw [hc, hroll]
    exact ⟨rfl, rfl⟩
  · rw [holdSettle_roll, applyLabelled_set_aside m o.sender x out (by rw [hk]; exact hno)]
    rfl
  · have h0 := holdSettle_eq (clearFrame (applyLabelled m o.sender x out))
    generalize holdSettle (clearFrame (applyLabelled m o.sender x out)) = k at h0 ⊢
    rw [h0, he]
    rfl

/-! ### The cut plan (R156) -/

theorem placeOutside_here (u : RollUnit) (c : Nat) (r : CutReasons) (h : (entryAt u.plan c).isSome = true) :
    placeOutside u c r = { u with plan := addReasons u.plan c r } := if_pos h

theorem placeOutside_free (u : RollUnit) (c : Nat) (r : CutReasons) (h : (entryAt u.plan c).isSome = false)
    (hl : u.plan.length < 8) :
    placeOutside u c r = { u with plan := insertEntry { cut := c, reasons := r, kind := .roll } u.plan } := by
  unfold placeOutside
  rw [if_neg (by rw [h]; decide), if_pos hl]

theorem placeOutside_full (u : RollUnit) (c : Nat) (r : CutReasons) (h : (entryAt u.plan c).isSome = false)
    (hl : 8 ≤ u.plan.length) :
    (∀ e, entryAfter u.plan c = some e → placeOutside u c r = { u with plan := addReasons u.plan e.cut r }) ∧
    (entryAfter u.plan c = none → placeOutside u c r = { u with planRefusals := u.planRefusals + 1 }) := by
  unfold placeOutside
  rw [if_neg (by rw [h]; decide), if_neg (by omega)]
  refine ⟨fun e he => ?_, fun he => ?_⟩ <;> rw [he]

theorem placeCut_outside (u : RollUnit) (c : Nat) (r : CutReasons)
    (h : insideWaste u c = false ∨ (r.full = false ∧ entryAfter u.plan c = none)) : placeCut u c r = placeOutside u c r := by
  unfold placeCut
  rcases h with h | ⟨hf, hn⟩
  · rw [h]
    rfl
  · split
    · rw [if_neg (by rw [hf]; decide), hn]
    · rfl

theorem entryAt_isSome (plan : List PlanEntry) (c : Nat) :
    (entryAt plan c).isSome = plan.any fun e => decide (e.cut = c) := by
  unfold entryAt
  rw [Bool.eq_iff_iff, List.find?_isSome, List.any_eq_true]

theorem plansTakeCuts : Claims.PlansTakeCuts := by
  intro u c r here next joined
  refine ⟨fun hi hf => ?_, fun e hi hf hn => ?_, fun hout => ⟨fun hh => ?_, fun hh hl => ?_, fun e hh hl hn => ?_, fun hh hl hn => ?_⟩⟩
  · unfold placeCut
    rw [if_pos hi, if_pos hf]
  · have hn' : entryAfter u.plan c = some e := hn
    unfold placeCut
    rw [if_pos hi, if_neg (by rw [hf]; decide), hn']
    rfl
  · rw [placeCut_outside u c r hout, placeOutside_here u c r ((entryAt_isSome _ _).trans hh)]
    rfl
  · rw [placeCut_outside u c r hout, placeOutside_free u c r ((entryAt_isSome _ _).trans hh) hl]
  · rw [placeCut_outside u c r hout, (placeOutside_full u c r ((entryAt_isSome _ _).trans hh) hl).1 e hn]
    rfl
  · rw [placeCut_outside u c r hout, (placeOutside_full u c r ((entryAt_isSome _ _).trans hh) hl).2 hn]

end Sys2Proof.Proofs
end

/-! PROOFS. The Roll Builder at a match report (R158, R159, R164), and the own ROLL (R169). -/
section
namespace Sys2Proof.Proofs

open Sys2Proof.Machine Sys2Proof.Laws Sys2Proof.Claims

/-! ### The order of repeats -/

theorem repeatNewer_asymm (a b : Nat) (h : repeatNewer a b = true) : repeatNewer b a = false := by
  unfold repeatNewer newer fwd repeatRange at h ⊢
  simp only [Bool.and_eq_true, decide_eq_true_eq, Bool.and_eq_false_iff, decide_eq_false_iff_not] at h ⊢
  omega

/-- A repeat is not newer than one at or after it. -/
theorem repeatNewer_of_atOrAfter (a b : Nat) (h : repeatAtOrAfter a b = true) : repeatNewer b a = false := by
  unfold repeatAtOrAfter atOrAfter at h
  rw [Bool.or_eq_true, decide_eq_true_eq] at h
  rcases h with rfl | h
  · exact repeatNewer_self a
  · exact repeatNewer_asymm a b h

/-- A repeat is not at or after its successor. -/
theorem succ_not_reached (x : Nat) (h1 : 1 ≤ x) (hr : x ≤ repeatRange) :
    succIn repeatRange x ≠ x ∧ repeatAtOrAfter x (succIn repeatRange x) = false := by
  unfold repeatAtOrAfter atOrAfter newer fwd succIn
  unfold repeatRange at hr ⊢
  simp only [Bool.or_eq_false_iff, Bool.and_eq_false_iff, decide_eq_false_iff_not]
  split <;> omega

/-- A repeat less than half the range on is newer. -/
theorem addIn_newer (x k : Nat) (h1 : 1 ≤ x) (hr : x ≤ repeatRange) (hk : 1 ≤ k) (hk' : k ≤ 1000000) :
    repeatNewer (addIn repeatRange x k) x = true := by
  unfold repeatNewer newer fwd addIn
  unfold repeatRange at hr ⊢
  simp only [Bool.and_eq_true, decide_eq_true_eq]
  omega

/-! ### The START piece (R158) -/

theorem rollReport_joined (n : Node) (here : Nat) (edge : Pos) (real : Bool) (hr : isRole n .rewind = true)
    (hj : isJoined n = true) :
    rollReport n here edge real none =
      if real then armCuts (if n.track.tracker = .track ∧ n.link.resume = none then openStart n here edge else n) here edge
      else (if n.track.tracker = .track ∧ n.link.resume = none then openStart n here edge else n) := by
  unfold rollReport
  rw [if_pos ⟨hr, hj⟩]

/-- R158: the open piece and the plan at the START report. -/
def startUnit (n : Node) (here : Nat) (edge : Pos) (j : JobRecord) (p : Pattern) (x : Nat) : RollUnit :=
  { n.roll with
    piece := some { number := x, kind := .waste, first := here,
                    opening := movePos (movePos edge (cfg n).eyeToKnife) p.cutOffset, job := j.number,
                    pattern := some j.pattern, full := 0, start := true },
    nextRoll := some (succIn rollRange x),
    plan := [{ cut := succIn repeatRange here, reasons := { start := true }, kind := .roll }] }

theorem placeCut_first (u : RollUnit) (c : Nat) (r : CutReasons)
    (hplan : u.plan = []) (hf : r.full = false) :
    placeCut u c r = { u with plan := [{ cut := c, reasons := r, kind := .roll }] } := by
  have hafter : entryAfter u.plan c = none := by
    rw [hplan]
    rfl
  have hat : (entryAt u.plan c).isSome = false := by
    rw [hplan]
    rfl
  have hout : placeCut u c r = placeOutside u c r := placeCut_outside u c r (Or.inr ⟨hf, hafter⟩)
  rw [hout, placeOutside_free u c r hat (by rw [hplan]; decide), hplan]
  rfl

theorem openStart_opens (n : Node) (here : Nat) (edge : Pos) (j : JobRecord) (p : Pattern) (x : Nat)
    (hj : n.job.current = some j) (hp : curPattern n = some p) (hpc : n.roll.piece = none) (hplan : n.roll.plan = [])
    (hx : n.roll.nextRoll = some x) : openStart n here edge = { n with roll := startUnit n here edge j p x } := by
  have hoff : cutOffset n = p.cutOffset := by
    unfold cutOffset
    rw [hp]
  have hfilter : (n.roll.plan.filter fun e => repeatNewer e.cut here) = [] := by
    rw [hplan]
    rfl
  unfold openStart
  rw [hpc, hx]
  dsimp only
  rw [hfilter, hj, hoff]
  dsimp only [List.head?_nil]
  rw [placeCut_first _ _ _ rfl rfl]
  rfl

theorem dueEntry_none (u : RollUnit) (here : Nat) (h : ∀ e ∈ u.plan, repeatAtOrAfter here e.cut = false) : dueEntry u here = u := by
  have hf : (u.plan.filter fun x => x.arming.isNone && repeatAtOrAfter here x.cut) = [] := by
    rw [List.filter_eq_nil_iff]
    intro e he
    simp [h e he]
  unfold dueEntry
  rw [hf]

/-- R164: with no entry due nothing is armed. -/
theorem armCuts_none (n : Node) (here : Nat) (edge : Pos)
    (h : ∀ e ∈ n.roll.plan, e.cut ≠ here ∧ repeatAtOrAfter here e.cut = false) : armCuts n here edge = n := by
  unfold armCuts
  split
  · rfl
  · dsimp only
    rw [dueEntry_none n.roll here fun e he => (h e he).2, entryAt_none n.roll.plan here fun e he => (h e he).1]

/-! ### Arming (R159, R164) -/

theorem joinReasons_none (r : CutReasons) : joinReasons {} r = r := by simp [joinReasons]

/-- R164: the entry to arm at here. -/
def entryToArm (e : PlanEntry) (here : Nat) : PlanEntry :=
  { e with cut := here, moved := e.moved || decide (e.cut ≠ here), full := if e.cut = here then e.full else 0 }

theorem dueEntry_one (u : RollUnit) (e : PlanEntry) (here : Nat) (hplan : u.plan = [e]) (ha : e.arming = none)
    (h : repeatAtOrAfter here e.cut = true) :
    dueEntry u here = { u with
      plan := [entryToArm e here], cutsMoved := u.cutsMoved + (if e.cut = here then 0 else 1) } := by
  have hf : (u.plan.filter fun x => x.arming.isNone && repeatAtOrAfter here x.cut) = [e] := by
    rw [hplan]
    simp [ha, h]
  unfold dueEntry
  rw [hf]
  dsimp only
  by_cases hc : e.cut = here
  · have hself : entryToArm e here = e := by
      unfold entryToArm
      subst hc
      simp
    have hcount : u.cutsMoved + 0 = u.cutsMoved := by simp
    rw [if_pos hc, if_pos hc, hself, ← hplan, hcount]
  · have hrest : (u.plan.filter fun x => x.arming.isSome || repeatNewer x.cut here) = [] := by
      rw [hplan]
      simp [ha, repeatNewer_of_atOrAfter here e.cut h]
    rw [if_neg hc, if_neg hc]
    unfold mergeDue
    dsimp only
    rw [hrest]
    simp [entryToArm, insertEntry, joinReasons_none, hc, ha]

/-- R159: the plan of an armed entry, with FULL planned behind a ROLL. -/
def armedPlan (x : PlanEntry) (here k : Nat) : List PlanEntry :=
  if x.kind = .roll then
    [{ x with full := k }, { cut := addIn repeatRange here k, reasons := { full := true }, kind := .roll }]
  else [{ x with full := 0 }]

theorem fullCount_bounds (p : Pattern) (h1 : 0 < p.minRoll) (h2 : p.minRoll ≤ 1000000) (h3 : 2500 ≤ p.nominal) :
    1 ≤ fullCount p ∧ fullCount p ≤ 1000000 := by
  have hsplit : p.minRoll + p.nominal - 1 = (p.minRoll - 1) + p.nominal := by omega
  have hdiv : fullCount p = (p.minRoll - 1) / p.nominal + 1 := by
    unfold fullCount ceilDiv
    rw [hsplit, Nat.add_div_right _ (by omega)]
  have hle : (p.minRoll - 1) / p.nominal ≤ p.minRoll - 1 := Nat.div_le_self _ _
  rw [hdiv]
  generalize (p.minRoll - 1) / p.nominal = q at hle
  omega

/-- A FULL that many repeats behind the one entry of the plan, a ROLL, takes a place of its own. -/
theorem placeCut_behind (u : RollUnit) (x : PlanEntry) (c : Nat) (r : CutReasons) (hplan : u.plan = [x]) (hk : x.kind = .roll)
    (hn : repeatNewer c x.cut = true) :
    placeCut u c r = { u with plan := [x, { cut := c, reasons := r, kind := .roll }] } := by
  have hne : x.cut ≠ c := by
    rintro rfl
    rw [repeatNewer_self] at hn
    cases hn
  have hold : repeatNewer x.cut c = false := repeatNewer_asymm _ _ hn
  have hafter : repeatAtOrAfter c x.cut = true := by
    unfold repeatAtOrAfter atOrAfter
    unfold repeatNewer at hn
    rw [hn, Bool.or_true]
  have hin : insideWaste u c = false := by
    have hat : entryAtOrBefore u.plan c = some x := by
      rw [hplan]
      simp [entryAtOrBefore, hafter]
    unfold insideWaste kindAt
    rw [hat]
    simp [hk]
  have hat : (entryAt u.plan c).isSome = false := by
    rw [hplan]
    simp [entryAt, hne]
  rw [placeCut_outside u _ _ (Or.inl hin), placeOutside_free u _ _ hat (by simp [hplan]), hplan]
  simp [insertEntry, hold]

/-- R159: FULL behind the one entry of the plan, whose pattern is known. -/
theorem planFull_one (c : Config) (u : RollUnit) (x : PlanEntry) (p : Pattern) (hplan : u.plan = [x])
    (hpat : findPattern c p.code = some p) (hn : repeatNewer (addIn repeatRange x.cut (fullCount p)) x.cut = true) :
    planFull c u x.cut x.kind (some p.code) = { u with plan := armedPlan x x.cut (fullCount p) } := by
  have hdrop : dropFull u.plan x.cut = [x] := by
    rw [hplan]
    simp [dropFull, repeatNewer_self]
  have hupd : ∀ f : PlanEntry → PlanEntry, updateEntry [x] x.cut f = [f x] := fun f => by simp [updateEntry]
  unfold planFull
  rw [hdrop]
  dsimp only [Option.bind_some]
  rw [hpat]
  cases hkind : x.kind with
  | roll =>
    dsimp only
    rw [hupd, placeCut_behind _ { x with full := fullCount p } _ _ rfl hkind hn]
    simp [armedPlan, hkind]
  | waste =>
    dsimp only
    rw [hupd]
    simp [armedPlan, hkind]

theorem freeTag_first (plan : List PlanEntry) (h : ∀ e ∈ plan, e.arming = none) : freeTag plan = 1 := by
  have hany : (plan.any fun e => decide (e.arming.map (·.tag) = some 1)) = false := by
    rw [List.any_eq_false]
    intro e he
    simp [h e he]
  unfold freeTag
  rw [List.find?_cons_of_pos (by rw [hany]; rfl)]
  rfl

/-- R164: what the arming of the one entry at here records. -/
def armingOf (n : Node) (edge : Pos) (j : JobRecord) (p : Pattern) : Arming :=
  { tag := 1, knife := movePos (movePos edge (cfg n).eyeToKnife) p.cutOffset, job := j.number, pattern := some p.code }

/-- R164: the trigger that the arming places. -/
def knifeTrigger (n : Node) (edge : Pos) (p : Pattern) : TriggerEntry :=
  { output := .cut, position := movePos (movePos edge (cfg n).eyeToKnife) p.cutOffset, tag := 1 }

theorem armEntry_one (n : Node) (x : PlanEntry) (edge : Pos) (j : JobRecord) (p : Pattern) (hplan : n.roll.plan = [x])
    (ha : x.arming = none) (hj : n.job.current = some j) (hp : curPattern n = some p) (h1 : 1 ≤ x.cut) (hr : x.cut ≤ repeatRange)
    (hpass : passed n.travel.position (movePos (movePos edge (cfg n).eyeToKnife) p.cutOffset) = false)
    (hlen : n.trig.entries.length < 8) (htag : ∀ t ∈ n.trig.entries, t.tag ≠ 1) (hm1 : 0 < p.minRoll) (hm2 : p.minRoll ≤ 1000000)
    (hnom : 2500 ≤ p.nominal) :
    armEntry n x edge = { n with
      trig := { n.trig with entries := insertTrigger (knifeTrigger n edge p) n.trig.entries },
      roll := { n.roll with plan := armedPlan { x with arming := some (armingOf n edge j p) } x.cut (fullCount p) } } := by
  have hoff : cutOffset n = p.cutOffset := by
    unfold cutOffset
    rw [hp]
  have hknife : knifePosition n edge = movePos (movePos edge (cfg n).eyeToKnife) p.cutOffset := by
    unfold knifePosition
    rw [hplan, hoff]
    simp [ha]
  have hfree : freeTag n.roll.plan = 1 := freeTag_first _ (by rw [hplan]; simpa using ha)
  have hpat : findPattern (cfg n) p.code = some p := by
    unfold curPattern at hp
    rw [hj] at hp
    have hf : findPattern (cfg n) j.pattern = some p := hp
    have hcode : p.code = j.pattern := by
      unfold findPattern at hf
      simpa using List.find?_some hf
    rw [hcode]
    exact hf
  have hupd : updateEntry n.roll.plan x.cut (fun y => { y with kind := x.kind }) = n.roll.plan := by
    rw [hplan]
    simp [updateEntry]
  have hfil : (n.trig.entries.filter fun t => decide (t.tag ≠ 1)) = n.trig.entries := by
    rw [List.filter_eq_self]
    intro t ht
    simpa using htag t ht
  obtain ⟨hk1, hk2⟩ := fullCount_bounds p hm1 hm2 hnom
  unfold armEntry
  rw [hp, hknife, hfree, hj]
  dsimp only [Option.map_some, Option.isNone_some]
  rw [if_neg Bool.false_ne_true, hupd, armTrigger_armed _ .cut _ 1 hpass (Or.inr hlen)]
  dsimp only
  rw [hfil]
  have hone : updateEntry n.roll.plan x.cut (fun y => { y with arming := some (armingOf n edge j p) }) =
      [{ x with arming := some (armingOf n edge j p) }] := by
    rw [hplan]
    simp [updateEntry]
  have hfull := planFull_one (cfg n) { n.roll with plan := [{ x with arming := some (armingOf n edge j p) }] }
    { x with arming := some (armingOf n edge j p) } p rfl hpat (addIn_newer x.cut _ h1 hr hk1 hk2)
  unfold armingOf at hone hfull ⊢
  rw [hone]
  exact congrArg (fun u => { n with
    trig := { n.trig with entries := insertTrigger (knifeTrigger n edge p) n.trig.entries },
    roll := u }) hfull

theorem reportsOpenAndArm : Claims.ReportsOpenAndArm := by
  intro n here edge j p hr hj hjob hpat h1 hrange knife
  refine ⟨fun x hpc hplan hx htr hres real => ?_, fun pc e hpc hplan ha hdue => ⟨?_, fun hpass hlen htag hm1 hm2 hnom => ?_⟩⟩
  · obtain ⟨hne, hlate⟩ := succ_not_reached here h1 hrange
    have hstart := openStart_opens n here edge j p x hjob hpat hpc hplan hx
    have hstay : armCuts { n with roll := startUnit n here edge j p x } here edge = { n with roll := startUnit n here edge j p x } := by
      refine armCuts_none _ here edge fun e he => ?_
      obtain rfl : e = { cut := succIn repeatRange here, reasons := { start := true }, kind := .roll } := List.mem_singleton.1 he
      exact ⟨hne, hlate⟩
    have hopen : (if n.track.tracker = .track ∧ n.link.resume = none then openStart n here edge else n) =
        { n with roll := startUnit n here edge j p x } := (if_pos ⟨htr, hres⟩).trans hstart
    rw [rollReport_joined n here edge real hr hj, hopen, hstay, ite_self]
    rfl
  · have hkeep : openStart n here edge = n := by
      unfold openStart
      rw [hpc]
    rw [rollReport_joined n here edge false hr hj, hkeep, ite_self]
    exact if_neg Bool.false_ne_true
  · intro armed k t
    have hkeep : openStart n here edge = n := by
      unfold openStart
      rw [hpc]
    let m : Node := { n with roll := { n.roll with
      plan := [entryToArm e here], cutsMoved := n.roll.cutsMoved + (if e.cut = here then 0 else 1) } }
    have hm : m = { n with roll := { n.roll with
      plan := [entryToArm e here], cutsMoved := n.roll.cutsMoved + (if e.cut = here then 0 else 1) } } := rfl
    have hat : entryAt m.roll.plan here = some (entryToArm e here) := by
      rw [hm]
      simp [entryAt, entryToArm]
    have hcuts : armCuts n here edge = armEntry m (entryToArm e here) edge := by
      unfold armCuts
      rw [if_neg (by rw [hpc]; exact Bool.false_ne_true), dueEntry_one n.roll e here hplan ha hdue]
      dsimp only
      rw [← hm, hat]
      exact if_pos (by rw [show (entryToArm e here).arming = none from ha]; rfl)
    have hone := armEntry_one m (entryToArm e here) edge j p rfl ha hjob hpat h1 hrange hpass hlen htag hm1 hm2 hnom
    have ht : t = armEntry m (entryToArm e here) edge := by
      show rollReport n here edge true none = _
      rw [rollReport_joined n here edge true hr hj, hkeep, ite_self, ← hcuts]
      exact if_pos rfl
    rw [ht, hone]
    exact ⟨rfl, rfl, rfl⟩

/-! ### The own ROLL (R169) -/

/-- What the roll list keeps of the Roll Builder at a node without a composer. -/
theorem rollStored_other (n : Node) (p : RollContent) (h : labelWorks n = false) :
    rollStored n p = { n with
      roll := { n.roll with list := storedList n.roll.list p },
      track := { n.track with table := n.track.table.filter fun r => !inRun repeatRange p.first p.count r.number } } := by
  unfold rollStored
  rw [storeRoll_other n p h]
  rfl

/-- The applied own ROLL of a REWIND node: the pieces awaiting completion and the link but for offers stay. -/
theorem ownRoll_applied (n : Node) (k : Nat) (p : RollContent) (h : labelWorks n = false) :
    (applyRoll n k false false p).roll.awaiting = n.roll.awaiting ∧
    linkRest (applyRoll n k false false p).link = linkRest n.link := by
  cases hk : heldAs n k .rewind with
  | false =>
    rw [applyRoll_unheld n k false false p hk]
    exact ⟨rfl, rfl⟩
  | true =>
    cases hc : rollClashes n.roll.list p with
    | true =>
      rw [applyRoll_clash n k false p hc]
      exact ⟨rfl, rfl⟩
    | false =>
      obtain ⟨hframe, hrest⟩ := applyRoll_frame n k false p hk hc
      rw [rollStored_other n p h] at hframe hrest
      refine ⟨?_, hrest⟩
      rw [hframe]

/-- R169: the node whose ROLL has completed. -/
def rollLeft (a : Node) (c : RollContent) : Node :=
  { a with roll := { a.roll with awaiting := a.roll.awaiting.filter fun x => decide (x.number ≠ c.number) } }

theorem ownRoll_meaning (s : State) (c : RollContent) (h : Sends s (.roll c) .roll) :
    meaning (.roll (ownOrigin s) c) s.node = holdSettle (clearFrame (rollLeft
      (applyRoll (ownNode s.node (.roll c)) (cfg s.node).station false false c) c)) :=
  completeFrame_sent s (.roll c) .roll h rfl rfl

theorem rewind_without_composer (n : Node) (h : isRole n .rewind = true) : labelWorks n = false := by
  refine labelWorks_other n ?_
  unfold isRole at h ⊢
  cases hi : n.image with
  | none => rfl
  | some c =>
    rw [hi] at h
    have hc : c.role = .rewind := by simpa using h
    simp [hc]

theorem ownRollsLeaveTheWait : Claims.OwnRollsLeaveTheWait := by
  intro s c hsends hrole
  let m := ownNode s.node (.roll c)
  have hw : labelWorks m = false := rewind_without_composer m hrole
  have hm := ownRoll_meaning s c hsends
  refine ⟨after_meaning ?_, fun hk hc hin hl => after_meaning ?_⟩
  · obtain ⟨hwait, hrest⟩ := ownRoll_applied m (cfg s.node).station c hw
    obtain ⟨-, -, -, hs, -, -, -, hn, -⟩ := linkRest_fields hrest
    obtain ⟨-, hnewest, -⟩ := settled_newest (rollLeft (applyRoll m (cfg s.node).station false false c) c)
    rw [hm]
    refine ⟨?_, ?_, ?_⟩
    · rw [holdSettle_roll]
      exact congrArg (List.filter fun x => decide (x.number ≠ c.number)) hwait
    · rw [settled_sending]
      exact hs
    · rw [hnewest]
      exact hn
  · obtain ⟨hframe, -⟩ := applyRoll_frame m (cfg s.node).station false c hk hc
    rw [rollStored_other m c hw] at hframe
    have hlist : storedList s.node.roll.list c = s.node.roll.list ++ [c] := by
      have hany : ¬(s.node.roll.list.any fun x => decide (x.number = c.number)) = true := by
        unfold inRollList at hin
        rw [hin]
        exact Bool.false_ne_true
      unfold storedList
      rw [if_neg hany, if_pos hl]
    rw [hm, holdSettle_roll, holdSettle_track, hframe]
    exact ⟨hlist, rfl⟩

/-- Settles O44: a heard ROLL by `roll_heard`, the plan by the cases of `placeCut`, the report by what is due, the own ROLL by its
offer. -/
theorem rollTelegramsKeepTheList : Obligations.RollTelegramsKeepTheList :=
  ⟨rollEntersTheList, labelledRollsDepart, plansTakeCuts, reportsOpenAndArm, ownRollsLeaveTheWait⟩

end Sys2Proof.Proofs
end

/-! PROOFS. The silence of a peer (R141, R195). -/
section
namespace Sys2Proof.Proofs

open Sys2Proof.Machine Sys2Proof.Laws Sys2Proof.Claims

/-! ### An entry that is silent -/

theorem peerSilenceW_quiet (n : Node) (k : Nat) (ha : appliesFrames n = true) (hk : k ≠ (cfg n).station)
    (hp : (peerAt n k).state = .present) (hs : (cfg n).silence ≤ (peerAt n k).silence) :
    peerSilenceW k n = setPeer n k { peerAt n k with state := .quiet } := if_pos ⟨ha, hk, hp, hs⟩

theorem peerSilence2W_lost (n : Node) (k : Nat) (ha : appliesFrames n = true) (hk : k ≠ (cfg n).station)
    (hp : (peerAt n k).state = .present ∨ (peerAt n k).state = .quiet) (hs : 2 * (cfg n).silence ≤ (peerAt n k).silence) :
    peerSilence2W k n = holdSettle (setPeer n k { peerAt n k with state := .lost }) := if_pos ⟨ha, hk, hp, hs⟩

theorem peerAt_holdSettle (n : Node) (k : Nat) : peerAt (holdSettle n) k = peerAt n k := by
  unfold peerAt
  rw [holdSettle_peers]

theorem silenceMovesTheEntry : Claims.SilenceMovesTheEntry := by
  intro s k ha hwf hk hlen
  obtain ⟨h1, h31⟩ : 1 ≤ k ∧ k ≤ 31 := by simpa [wfStation] using hwf
  have hlt : k ≤ s.node.peers.length := by
    rw [hlen]
    exact h31
  intro p
  refine ⟨fun hp hs => after_meaning ?_, fun hp hs => after_meaning ?_, fun hs => ⟨?_, ?_⟩⟩
  · have hm : meaning (.peerSilenceW k) s.node = _ := peerSilenceW_quiet s.node k ha hk hp hs
    rw [hm]
    exact ⟨peerAt_setPeer_same _ _ _ h1 hlt, fun m hm1 hne => peerAt_setPeer_other _ _ _ _ h1 hm1 hne, setPeer_eq _ _ _⟩
  · have hm : meaning (.peerSilence2W k) s.node = _ := peerSilence2W_lost s.node k ha hk hp hs
    rw [hm]
    refine ⟨?_, fun m hm1 hne => ?_, ?_⟩
    · rw [peerAt_holdSettle]
      exact peerAt_setPeer_same _ _ _ h1 hlt
    · rw [peerAt_holdSettle]
      exact peerAt_setPeer_other _ _ _ _ h1 hm1 hne
    · have h0 := holdSettle_eq (setPeer s.node k { p with state := .lost })
      generalize holdSettle (setPeer s.node k { p with state := .lost }) = t at h0 ⊢
      rw [h0, setPeer_eq]
  · refine gives_of_meaning (c := .peerSilenceW k) (if_neg ?_)
    rintro ⟨-, -, -, h⟩
    exact absurd h (Nat.not_le.2 hs)
  · refine gives_of_meaning (c := .peerSilence2W k) (if_neg ?_)
    rintro ⟨-, -, -, h⟩
    have hs' : (peerAt s.node k).silence < (cfg s.node).silence := hs
    omega

/-! ### PEER_LOST -/

/-- R141: a learnt KEY that stands LOST raises PEER_LOST at every eye role. -/
theorem peerLost_of_key (n : Node) (p : Peer) (slot : Nat) (he : eyeRole n = true) (hmem : p ∈ n.peers)
    (hr : p.role = some (.key, slot)) (hl : p.learnt = true) (hs : p.state = .lost) : peerLost n = true := by
  have hdep : peerDependencyLost n p = true := by
    unfold peerDependencyLost
    rw [hr, hl, hs]
    rfl
  unfold peerLost
  rw [he, Bool.true_and, List.any_eq_true]
  exact ⟨p, hmem, hdep⟩

theorem eyeRole_of_image {a b : Node} (h : a.image = b.image) : eyeRole a = eyeRole b := by
  simp [eyeRole, isRole, h]

theorem mem_setPeer (n : Node) (k : Nat) (p : Peer) (h1 : 1 ≤ k) (hk : k ≤ n.peers.length) : p ∈ (setPeer n k p).peers := by
  have hlt : k - 1 < n.peers.length := by omega
  unfold setPeer
  rw [if_pos h1]
  exact List.mem_set hlt p

theorem lostKeyRaisesPeerLost : Claims.LostKeyRaisesPeerLost := by
  intro s k slot ha hwf hk hlen he hrole hl hst hs
  obtain ⟨h1, h31⟩ : 1 ≤ k ∧ k ≤ 31 := by simpa [wfStation] using hwf
  have hm : meaning (.peerSilence2W k) s.node = _ := peerSilence2W_lost s.node k ha hk (Or.inr hst) hs
  have himg : (holdSettle (setPeer s.node k { peerAt s.node k with state := .lost })).image = s.node.image := by
    rw [holdSettle_image, setPeer_eq]
  have hlost : peerLost (holdSettle (setPeer s.node k { peerAt s.node k with state := .lost })) = true := by
    refine peerLost_of_key _ { peerAt s.node k with state := .lost } slot ((eyeRole_of_image himg).trans he) ?_ hrole hl rfl
    rw [holdSettle_peers]
    exact mem_setPeer _ _ _ h1 (by rw [hlen]; exact h31)
  refine after_meaning ?_
  rw [hm]
  exact ⟨hlost, (factorInputs_peerLost _).trans hlost⟩

/-- Settles O46: each silence by the entry it writes, PEER_LOST by the KEY's. -/
theorem silencesMoveThePeers : Obligations.SilencesMoveThePeers := ⟨silenceMovesTheEntry, lostKeyRaisesPeerLost⟩

end Sys2Proof.Proofs
end

/-! PROOFS. Arrivals, the printer and the outcomes of the LABEL node (R172, R178 to R187). -/
section
namespace Sys2Proof.Proofs

open Sys2Proof.Machine Sys2Proof.Laws Sys2Proof.Claims

/-! ### Outcomes and dispositions -/

/-- R186: a LABELLED that names a roll, or finds room, leaves the outcomes in offer as they are. -/
theorem offerLabelled_link (n : Node) (o : OutcomeEntry) (h : o.number ≠ 0 ∨ n.link.queue.length < 16) :
    offerLabelled n o = { n with link := (offerLabelled n o).link } := by
  have heq := enqueue_eq n (.labelled o.number o.outcome) false (.labelled o.serial)
  unfold offerLabelled
  split
  · next m hm =>
    have hnum : o.number ≠ 0 := by
      rcases h with h | h
      · exact h
      · intro _
        cases hmay : mayOffer n (.labelled o.number o.outcome) with
        | true =>
          rw [enqueue_placed _ _ _ _ hmay h] at hm
          cases hm
        | false =>
          rw [enqueue_silent _ _ _ _ hmay] at hm
          cases hm
    rw [hm] at heq
    dsimp only at heq
    rw [if_neg hnum, heq]
    rfl
  · next m _ _ hm =>
    rw [hm] at heq
    exact heq

/-- R186: an offer touches nothing of the composer but the outcomes. -/
theorem offerLabelled_outcomes (n : Node) (o : OutcomeEntry) :
    (offerLabelled n o).label = { n.label with outcomes := (offerLabelled n o).label.outcomes } := by
  have heq := enqueue_eq n (.labelled o.number o.outcome) false (.labelled o.serial)
  unfold offerLabelled
  split
  · next m hm =>
    rw [hm] at heq
    dsimp only at heq
    rw [heq]
    split <;> rfl
  · next m _ _ hm =>
    rw [hm] at heq
    dsimp only at heq
    rw [heq]

/-- R186: the entry that joins the outcomes in offer. -/
def outcomeEntry (n : Node) (x : Nat) (o : LabelOutcome) : OutcomeEntry :=
  { number := x, outcome := o, serial := n.label.nextSerial }

theorem joinOutcome_eq (n : Node) (x : Nat) (o : LabelOutcome) (h : x ≠ 0 ∨ n.link.queue.length < 16)
    (hl : n.label.outcomes.length < 32) :
    joinOutcome n x o = { n with
      label := { n.label with outcomes := n.label.outcomes ++ [outcomeEntry n x o], nextSerial := n.label.nextSerial + 1 },
      link := (joinOutcome n x o).link } := by
  have hroom : roomForOutcome n = n.label.outcomes := if_pos hl
  have hoff := offerLabelled_link { n with label := { n.label with
    outcomes := n.label.outcomes ++ [outcomeEntry n x o], nextSerial := n.label.nextSerial + 1 } } (outcomeEntry n x o) h
  unfold joinOutcome
  dsimp only
  rw [hroom]
  exact hoff

theorem joinOutcome_label (n : Node) (x : Nat) (o : LabelOutcome) :
    (joinOutcome n x o).label = { n.label with
      outcomes := (joinOutcome n x o).label.outcomes, nextSerial := n.label.nextSerial + 1 } := by
  unfold joinOutcome
  exact offerLabelled_outcomes _ _

/-- R186: what the decision of a roll leaves of the composer. -/
theorem decideEntry_eq (n : Node) (x : Nat) (o : LabelOutcome) (hx : x ≠ 0) (hl : n.label.outcomes.length < 32) :
    decideEntry n x o = { n with
      label := { n.label with
        disps := (n.label.disps.filter fun y => decide (y.1 ≠ x)) ++ [(x, .decided o)],
        outcomes := n.label.outcomes ++ [outcomeEntry n x o], nextSerial := n.label.nextSerial + 1 },
      link := (decideEntry n x o).link } := by
  unfold decideEntry
  exact joinOutcome_eq (setDisposition n x (.decided o)) x o (Or.inl hx) hl

theorem dispositionOf_congr {a b : Node} (h : a.label.disps = b.label.disps) (x : Nat) : dispositionOf a x = dispositionOf b x := by
  unfold dispositionOf
  rw [h]

theorem dispositionOf_set_other (n : Node) (x y : Nat) (d : Disposition) (h : y ≠ x) :
    dispositionOf (setDisposition n x d) y = dispositionOf n y := by
  have hf : ((setDisposition n x d).label.disps.find? fun z => decide (z.1 = y)) =
      n.label.disps.find? fun z => decide (z.1 = y) := by
    show (((n.label.disps.filter fun z => decide (z.1 ≠ x)) ++ [(x, d)]).find? fun z => decide (z.1 = y)) = _
    have hlast : ([(x, d)].find? fun z => decide (z.1 = y)) = none := by simp [Ne.symm h]
    rw [List.find?_append, hlast, Option.or_none, List.find?_filter]
    congr 1
    funext z
    by_cases hz : z.1 = y
    · simp [hz, h]
    · simp [hz]
  unfold dispositionOf
  rw [hf]

theorem decideEntry_disps (n : Node) (x : Nat) (o : LabelOutcome) :
    (decideEntry n x o).label.disps = (setDisposition n x (.decided o)).label.disps := by
  unfold decideEntry
  rw [joinOutcome_label]

theorem dispositionOf_decided (n : Node) (x : Nat) (o : LabelOutcome) : dispositionOf (decideEntry n x o) x = some (.decided o) :=
  (dispositionOf_congr (decideEntry_disps n x o) x).trans (dispositionOf_set n x _)

theorem dispositionOf_holdSettle (n : Node) (x : Nat) : dispositionOf (holdSettle n) x = dispositionOf n x :=
  dispositionOf_congr (congrArg LabelUnit.disps (holdSettle_label n)) x

/-! ### The printer -/

theorem sendBlock_idle (n : Node) (l : Label) (rest : List Label) (hp : n.label.printer = .idle) (hq : n.label.queue = l :: rest) :
    sendBlock n = { n with label := { n.label with
      printer := .printing, seenLow := false, abandoned := false, printTimer := some 5000,
      sending := some (l.block ++ [13], 0) } } := by
  unfold sendBlock
  rw [hp, hq]

theorem sendBlock_none (n : Node) (h : n.label.queue = [] ∨ n.label.printer ≠ .idle) : sendBlock n = n := by
  unfold sendBlock
  split
  · next l rest hp hq =>
    rcases h with h | h
    · rw [hq] at h
      cases h
    · exact absurd hp h
  · rfl

/-! ### Arrivals -/

/-- R179: the node whose sensor has become PRESENT. -/
def arrivedNode (n : Node) : Node := { n with label := { n.label with debounce := none, present := true } }

theorem arrival_taken (n : Node) (hd : n.label.debounce = some 0) (ha : n.pins.arriveHigh = true) (hp : n.label.present = false) :
    arrival n = if isJoined n then holdSettle (decideArrival (arrivedNode n)) else setGate (arrivedNode n) .holdLane := by
  unfold arrival
  rw [if_pos ⟨hd, ha, by rw [hp]; rfl⟩]
  rfl

theorem after_arrival {s : State} {p : Node → Prop} (hd : s.node.label.debounce = some 0) (ha : s.node.pins.arriveHigh = true)
    (hp : s.node.label.present = false) (hj : isJoined s.node = true)
    (h : ∀ m, m.label = (decideArrival (arrivedNode s.node)).label → p m) : After .arrival s p := by
  refine after_meaning ?_
  have hm : meaning .arrival s.node = holdSettle (decideArrival (arrivedNode s.node)) :=
    (arrival_taken s.node hd ha hp).trans (if_pos hj)
  rw [hm]
  exact h _ (holdSettle_label _)

theorem decideArrival_unknown (n : Node) (h : oldestWaiting n = none) :
    decideArrival n = joinOutcome (setGate n .holdLane) 0 .unknownRoll := by
  unfold decideArrival
  rw [h]

/-- R180: rows 2 and 4 of the table. -/
theorem decideArrival_full (n : Node) (c : RollContent) (h : oldestWaiting n = some c)
    (hf : n.label.printer = .fault ∨ (c.grade ≠ .waste ∧ 2 ≤ n.label.queue.length)) :
    decideArrival n = decideEntry (setGate n .holdLane) c.number .notLabelled := by
  unfold decideArrival
  rw [h]
  dsimp only
  by_cases hp : n.label.printer = .fault
  · exact if_pos hp
  · obtain ⟨hg, hq⟩ := hf.resolve_left hp
    rw [if_neg hp, if_neg hg, if_pos hq]

/-- R180: row 3. -/
theorem decideArrival_waste (n : Node) (c : RollContent) (h : oldestWaiting n = some c) (hp : n.label.printer ≠ .fault)
    (hg : c.grade = .waste) : decideArrival n = decideEntry (setGate n .wasteLane) c.number .divertedWaste := by
  unfold decideArrival
  rw [h]
  dsimp only
  rw [if_neg hp, if_pos hg]

/-- R180: rows 5 and 6. -/
theorem decideArrival_labelled (n : Node) (c : RollContent) (held : Bool) (h : oldestWaiting n = some c)
    (hp : n.label.printer ≠ .fault) (hg : c.grade ≠ .waste) (hq : n.label.queue.length < 2)
    (hh : (decide (c.grade = .hold) || (rollPattern n c.job).isNone) = held) :
    decideArrival n = queueLabel n c held := by
  unfold decideArrival
  rw [h]
  dsimp only
  rw [if_neg hp, if_neg hg, if_neg (Nat.not_le.2 hq), hh]

/-- The gate of a label. -/
def heldGate (held : Bool) : Gate := if held then .holdLane else .pass

/-- R180: the composer with a label in its queue, before its block can start. -/
def queuedLabel (n : Node) (c : RollContent) (held : Bool) : LabelUnit :=
  { n.label with
    gate := heldGate held, diverted := n.label.diverted + (if held then 1 else 0),
    disps := (n.label.disps.filter fun y => decide (y.1 ≠ c.number)) ++ [(c.number, .labelling)],
    queue := n.label.queue ++ [{ number := c.number, block := labelBlock n c held, gate := heldGate held }] }

theorem queueLabel_eq (n : Node) (c : RollContent) (held : Bool) :
    queueLabel n c held = sendBlock { n with label := queuedLabel n c held } := by
  cases held <;> rfl

/-- A roll that a label waits for is LABELLING. -/
theorem dispositionOf_queued {m : Node} (n : Node) (c : RollContent) (held : Bool)
    (h : m.label.disps = (queuedLabel n c held).disps) : dispositionOf m c.number = some .labelling :=
  (dispositionOf_congr (b := setDisposition n c.number .labelling) h c.number).trans (dispositionOf_set n c.number .labelling)

/-- R180: the roll is held for its grade or for an unknown pattern. -/
theorem held_of_row (n : Node) (c : RollContent)
    (h : c.grade = .hold ∨ ((c.grade = .first ∨ c.grade = .short) ∧ rollPattern n c.job = none)) :
    c.grade ≠ .waste ∧ (decide (c.grade = .hold) || (rollPattern n c.job).isNone) = true := by
  rcases h with hg | ⟨hg | hg, hp⟩
  · rw [hg]
    exact ⟨by decide, rfl⟩
  · rw [hg, hp]
    exact ⟨by decide, rfl⟩
  · rw [hg, hp]
    exact ⟨by decide, rfl⟩

theorem passed_of_row (n : Node) (c : RollContent) (hg : c.grade = .first ∨ c.grade = .short)
    (hp : (rollPattern n c.job).isSome = true) :
    c.grade ≠ .waste ∧ (decide (c.grade = .hold) || (rollPattern n c.job).isNone) = false := by
  obtain ⟨p, hp'⟩ := Option.isSome_iff_exists.1 hp
  rcases hg with hg | hg <;> rw [hg, hp'] <;> exact ⟨by decide, rfl⟩

/-- R180, R184: a label queued at an IDLE printer starts its block at once. -/
theorem idle_arrival (n : Node) (c : RollContent) (held : Bool) (h : oldestWaiting n = some c) (hp : n.label.printer = .idle)
    (hg : c.grade ≠ .waste) (hq : n.label.queue = []) (hh : (decide (c.grade = .hold) || (rollPattern n c.job).isNone) = held) :
    (decideArrival n).label = { queuedLabel n c held with
      printer := .printing, seenLow := false, abandoned := false, printTimer := some 5000,
      sending := some (labelBlock n c held ++ [13], 0) } := by
  rw [decideArrival_labelled n c held h (by rw [hp]; decide) hg (by rw [hq]; decide) hh, queueLabel_eq,
    sendBlock_idle { n with label := queuedLabel n c held }
      { number := c.number, block := labelBlock n c held, gate := heldGate held } [] hp (by
        show n.label.queue ++ _ = _
        rw [hq]
        rfl)]

theorem arrivalsAreDebounced : Claims.ArrivalsAreDebounced := by
  intro s high
  refine ⟨fun hr hne => ?_, fun hd ha hp => ?_⟩
  · exact gives_of_meaning (c := .arriveEdge high) (if_pos ⟨hr, hne⟩)
  · exact gives_of_meaning (c := .sensorClear) (if_pos ⟨hd, by rw [ha]; rfl, hp⟩)

theorem arrivalsSetTheGate : Claims.ArrivalsSetTheGate := by
  intro s _ hd ha hp
  let n := arrivedNode s.node
  refine ⟨fun hj => ?_, fun hj hw hl hq => ?_, fun c hj hw hc hl hf => ?_, fun c hj hw hrow hprn hq => ?_,
    fun c hj hw hg hc hprn hl => ?_, fun c pat hj hw hg hpat hprn hq => ?_, fun c held hj hw hrow hprn hq => ?_⟩
  · exact gives_of_meaning (c := .arrival)
      ((arrival_taken s.node hd ha hp).trans (if_neg (by rw [hj]; exact Bool.false_ne_true)))
  · refine after_arrival hd ha hp hj fun m hm => ?_
    rw [hm, decideArrival_unknown n hw, joinOutcome_eq (setGate n .holdLane) 0 .unknownRoll (Or.inr hq) hl]
    exact ⟨rfl, rfl, rfl, rfl⟩
  · refine after_arrival hd ha hp hj fun m hm => ?_
    have hdec := decideArrival_full n c hw hf
    rw [hdec] at hm
    have hdisp : dispositionOf m c.number = some (.decided .notLabelled) :=
      (dispositionOf_congr (congrArg LabelUnit.disps hm) c.number).trans (dispositionOf_decided _ _ _)
    rw [decideEntry_eq (setGate n .holdLane) c.number .notLabelled hc hl] at hm
    rw [hm]
    exact ⟨rfl, rfl, rfl, hdisp, rfl⟩
  · refine after_arrival hd ha hp hj fun m hm => ?_
    obtain ⟨hg, hh⟩ := held_of_row n c hrow
    rw [idle_arrival n c true hw hprn hg hq hh] at hm
    have hdisp : dispositionOf m c.number = some .labelling := dispositionOf_queued n c true (by rw [hm])
    rw [hm]
    refine ⟨rfl, rfl, hdisp, rfl, rfl, ?_, rfl⟩
    show n.label.queue ++ _ = _
    rw [show n.label.queue = [] from hq]
    rfl
  · refine after_arrival hd ha hp hj fun m hm => ?_
    rw [decideArrival_waste n c hw hprn hg] at hm
    have hdisp : dispositionOf m c.number = some (.decided .divertedWaste) :=
      (dispositionOf_congr (congrArg LabelUnit.disps hm) c.number).trans (dispositionOf_decided _ _ _)
    rw [decideEntry_eq (setGate n .wasteLane) c.number .divertedWaste hc hl] at hm
    rw [hm]
    exact ⟨rfl, rfl, hdisp, rfl⟩
  · refine after_arrival hd ha hp hj fun m hm => ?_
    obtain ⟨hg', hh⟩ := passed_of_row n c hg (Option.isSome_iff_exists.2 ⟨pat, hpat⟩)
    rw [idle_arrival n c false hw hprn hg' hq hh] at hm
    have hdisp : dispositionOf m c.number = some .labelling := dispositionOf_queued n c false (by rw [hm])
    have hcount : n.label.diverted + 0 = n.label.diverted := by simp
    rw [hm]
    refine ⟨rfl, hcount, hdisp, rfl, rfl, ?_, rfl⟩
    show n.label.queue ++ _ = _
    rw [show n.label.queue = [] from hq]
    rfl
  · refine after_arrival hd ha hp hj fun m hm => ?_
    obtain ⟨hg, hh⟩ : c.grade ≠ .waste ∧ (decide (c.grade = .hold) || (rollPattern n c.job).isNone) = held := by
      rcases hrow with ⟨rfl, hrow⟩ | ⟨rfl, hg, hpat⟩
      · exact held_of_row n c hrow
      · exact passed_of_row n c hg hpat
    have hbusy : n.label.printer ≠ .idle := by
      rw [show n.label.printer = .printing from hprn]
      decide
    rw [decideArrival_labelled n c held hw (by rw [show n.label.printer = .printing from hprn]; decide) hg hq hh, queueLabel_eq,
      sendBlock_none { n with label := queuedLabel n c held } (Or.inr hbusy)] at hm
    have hdisp : dispositionOf m c.number = some .labelling := dispositionOf_queued n c held (congrArg LabelUnit.disps hm)
    rw [hm]
    exact ⟨rfl, rfl, hdisp, rfl, hprn, rfl, rfl, rfl⟩

/-! ### The label block -/

theorem checkDigit_sum (a b d : List Nat) : checkDigit a b d = (a.sum + b.sum + d.sum) % 10 := by
  have h : (a ++ b ++ d).foldl (· + ·) 0 = (a ++ b ++ d).sum := List.sum_eq_foldl.symm
  unfold checkDigit
  rw [h, List.sum_append, List.sum_append]

theorem digitsOf_length (w x : Nat) : (digitsOf w x).length = w := by
  induction w generalizing x with
  | zero => rfl
  | succ w ih =>
    unfold digitsOf
    rw [List.length_append, ih, List.length_singleton]

theorem labelBlock_length (n : Node) (c : RollContent) (held : Bool) : (labelBlock n c held).length = 29 := by
  simp [labelBlock, fieldDigits, digitsOf_length]

/-- R182: the block as its 29 characters one by one. -/
theorem labelBlock_fields (n : Node) (c : RollContent) (held : Bool) :
    ((labelBlock n c held).take 6 = (fieldDigits 6 c.number).map digitChar) ∧
    ((labelBlock n c held).drop 6).take 4 = (fieldDigits 4 c.batch).map digitChar ∧
    ((labelBlock n c held).drop 10).take 3 = (fieldDigits 3 ((historyPattern n c.job).getD 0)).map digitChar ∧
    ((labelBlock n c held).drop 13).take 5 = (fieldDigits 5 c.job).map digitChar ∧
    ((labelBlock n c held).drop 18).take 5 = (fieldDigits 5 ((c.length + 50) / 100)).map digitChar ∧
    ((labelBlock n c held).drop 23).take 3 = (fieldDigits 3 c.count).map digitChar :=
  ⟨rfl, rfl, rfl, rfl, rfl, rfl⟩

/-- R183: ten bits to each character. -/
theorem serialBits_length (l : List Byte) : (serialBits l).length = 10 * l.length := by
  induction l with
  | nil => rfl
  | cons b bs ih =>
    have hone : (serialFrame b).length = 10 := rfl
    have hcons : serialBits (b :: bs) = serialFrame b ++ serialBits bs := List.flatMap_cons
    rw [hcons, List.length_append, hone, ih, List.length_cons]
    omega

theorem labelBlocksHave29Characters : Claims.LabelBlocksHave29Characters := by
  intro n c held
  obtain ⟨h1, h2, h3, h4, h5, h6⟩ := labelBlock_fields n c held
  refine ⟨labelBlock_length n c held, rfl, rfl, fun hx => ?_, rfl, fun g => ?_, checkDigit_sum,
    h2, h3, h4, h5, h6, ?_, fun b => ⟨rfl, rfl, rfl⟩⟩
  · have hmin : min c.number (10 ^ 6 - 1) = c.number := Nat.min_eq_left hx
    rw [h1]
    unfold fieldDigits
    rw [hmin]
  · cases held with
    | true => rfl
    | false => cases g <;> rfl
  · rw [serialBits_length, List.length_append, labelBlock_length]
    decide

/-- Settles O52: the sensor by its edges, the gate by the rows of the table, the block by its fields. -/
theorem arrivalsAndTheirBlocks : Obligations.ArrivalsAndTheirBlocks :=
  ⟨arrivalsAreDebounced, arrivalsSetTheGate, labelBlocksHave29Characters⟩

end Sys2Proof.Proofs
end

/-! PROOFS. The end of a print, the timers of the printer, deadlines and the own LABELLED (R178, R184 to R186). -/
section
namespace Sys2Proof.Proofs

open Sys2Proof.Machine Sys2Proof.Laws Sys2Proof.Claims

/-! ### READY -/

/-- R184: the outcome of a print by the gate of its label. -/
def printOutcome (g : Gate) : LabelOutcome := if g = .pass then .labelled else .divertedHold

theorem endPrint_head (n : Node) (l : Label) (rest : List Label) (ha : n.label.abandoned = false) (hq : n.label.queue = l :: rest) :
    endPrint n = decideEntry { n with label := { n.label with
      printTimer := none, applyTimer := some 100, queue := rest, printed := n.label.printed + 1 } } l.number
      (printOutcome l.gate) := by
  unfold endPrint
  rw [if_neg (by rw [ha]; exact Bool.false_ne_true), hq]
  rfl

theorem readyRise_idle (n : Node) (h : n.pins.readyHigh = false) (hp : n.label.printer = .idle) :
    readyRise n = { n with pins := { n.pins with readyHigh := true } } := by
  unfold readyRise
  rw [if_neg (by rw [h]; exact Bool.false_ne_true), hp]

theorem readyRise_fault (n : Node) (h : n.pins.readyHigh = false) (hp : n.label.printer = .fault) :
    readyRise n = { n with pins := { n.pins with readyHigh := true }, label := { n.label with readyTimer := some 1000 } } := by
  unfold readyRise
  rw [if_neg (by rw [h]; exact Bool.false_ne_true), hp]

theorem readyRise_printed (n : Node) (h : n.pins.readyHigh = false) (hp : n.label.printer = .printing)
    (hs : n.label.seenLow = true) (ha : n.label.applyTimer = none) :
    readyRise n = holdSettle (endPrint { n with pins := { n.pins with readyHigh := true } }) := by
  unfold readyRise
  rw [if_neg (by rw [h]; exact Bool.false_ne_true), hp]
  exact if_pos ⟨hs, by rw [ha]; rfl⟩

theorem readyEndsThePrint : Claims.ReadyEndsThePrint := by
  intro s
  refine ⟨fun hr => after_meaning ?_, fun hr => ⟨fun hp => ?_, fun hp => ?_, fun l rest hp hs ha hab hq hl hlen => after_meaning ?_⟩⟩
  · have hm : meaning .readyFall s.node = _ := if_pos hr
    rw [hm]
    exact ⟨rfl, rfl, rfl⟩
  · exact gives_of_meaning (c := .readyRise) (readyRise_idle s.node hr hp)
  · exact gives_of_meaning (c := .readyRise) (readyRise_fault s.node hr hp)
  · have hm : meaning .readyRise s.node = _ := readyRise_printed s.node hr hp hs ha
    rw [hm]
    let n : Node := { s.node with pins := { s.node.pins with readyHigh := true } }
    have hend := endPrint_head n l rest hab hq
    let d : Node := { n with label := { n.label with
      printTimer := none, applyTimer := some 100, queue := rest, printed := n.label.printed + 1 } }
    have hdisp : dispositionOf (holdSettle (endPrint n)) l.number = some (.decided (printOutcome l.gate)) := by
      rw [dispositionOf_holdSettle, hend]
      exact dispositionOf_decided _ _ _
    have hlabel : (holdSettle (endPrint n)).label = { d.label with
        disps := (d.label.disps.filter fun y => decide (y.1 ≠ l.number)) ++ [(l.number, .decided (printOutcome l.gate))],
        outcomes := d.label.outcomes ++ [outcomeEntry d l.number (printOutcome l.gate)],
        nextSerial := d.label.nextSerial + 1 } := by
      rw [holdSettle_label, hend, decideEntry_eq d l.number _ hl hlen]
    refine ⟨?_, ?_, ?_, ?_, ?_, hdisp, ?_⟩
    · rw [hlabel]
    · unfold pinAPPLY
      rw [hlabel]
      rfl
    · rw [hlabel]
    · rw [hlabel]
    · rw [hlabel]
    · rw [hlabel]
      rfl

/-! ### The timers of the printer -/

/-- What the decision of a roll leaves of the printer. -/
theorem decideEntry_printer (n : Node) (x : Nat) (o : LabelOutcome) :
    (decideEntry n x o).label.printer = n.label.printer ∧ (decideEntry n x o).label.queue = n.label.queue ∧
    (decideEntry n x o).label.printTimer = n.label.printTimer ∧ (decideEntry n x o).label.readyTimer = n.label.readyTimer ∧
    (decideEntry n x o).label.printed = n.label.printed := by
  unfold decideEntry
  rw [joinOutcome_label]
  exact ⟨rfl, rfl, rfl, rfl, rfl⟩

theorem failLabels_printer (ls : List Label) (n : Node) :
    (failLabels ls n).label.printer = n.label.printer ∧ (failLabels ls n).label.queue = n.label.queue ∧
    (failLabels ls n).label.printTimer = n.label.printTimer ∧ (failLabels ls n).label.readyTimer = n.label.readyTimer ∧
    (failLabels ls n).label.printed = n.label.printed := by
  induction ls generalizing n with
  | nil => exact ⟨rfl, rfl, rfl, rfl, rfl⟩
  | cons l ls ih =>
    obtain ⟨h1, h2, h3, h4, h5⟩ := ih (decideEntry n l.number .notLabelled)
    obtain ⟨d1, d2, d3, d4, d5⟩ := decideEntry_printer n l.number .notLabelled
    exact ⟨h1.trans d1, h2.trans d2, h3.trans d3, h4.trans d4, h5.trans d5⟩

/-- R185: every label of the queue ends NOT_LABELLED, and so does an entry that was so before. -/
theorem failLabels_decides (ls : List Label) (n : Node) (x : Nat)
    (h : (∃ l ∈ ls, l.number = x) ∨ dispositionOf n x = some (.decided .notLabelled)) :
    dispositionOf (failLabels ls n) x = some (.decided .notLabelled) := by
  induction ls generalizing n with
  | nil =>
    rcases h with ⟨l, hl, -⟩ | h
    · cases hl
    · exact h
  | cons l ls ih =>
    refine ih (decideEntry n l.number .notLabelled) ?_
    by_cases hx : x = l.number
    · rw [hx]
      exact Or.inr (dispositionOf_decided _ _ _)
    · rcases h with ⟨k, hk, hkx⟩ | h
      · rcases List.mem_cons.1 hk with rfl | hk
        · exact absurd hkx.symm hx
        · exact Or.inl ⟨k, hk, hkx⟩
      · refine Or.inr ?_
        rw [dispositionOf_congr (decideEntry_disps n l.number .notLabelled) x, dispositionOf_set_other n _ _ _ hx]
        exact h

theorem applyPulseEnd_due (n : Node) (h : n.label.applyTimer = some 0) :
    applyPulseEnd n = sendBlock { n with label := { n.label with applyTimer := none, printer := .idle } } := if_pos h

theorem readyTimer_due (n : Node) (h : n.label.readyTimer = some 0) :
    readyTimer n = sendBlock { n with label := { n.label with readyTimer := none, printer := .idle } } := if_pos h

theorem printerTimersMoveThePrinter : Claims.PrinterTimersMoveThePrinter := by
  intro s
  refine ⟨fun ha hq => ?_, fun l rest ha hq => ?_, fun hr hq => ?_, fun hp => after_meaning ?_⟩
  · refine gives_of_meaning (c := .applyPulseEnd) ((applyPulseEnd_due s.node ha).trans (sendBlock_none _ (Or.inl ?_)))
    exact hq
  · refine gives_of_meaning (c := .applyPulseEnd) ((applyPulseEnd_due s.node ha).trans (sendBlock_idle _ l rest ?_ ?_))
    · rfl
    · exact hq
  · refine gives_of_meaning (c := .readyTimer) ((readyTimer_due s.node hr).trans (sendBlock_none _ (Or.inl ?_)))
    exact hq
  · have hm : meaning .printTimer s.node = failLabels s.node.label.queue { s.node with label := { s.node.label with
        printTimer := none, printer := .fault, queue := [], abandoned := false,
        readyTimer := if s.node.pins.readyHigh then some 1000 else none } } := if_pos hp
    rw [hm]
    obtain ⟨h1, h2, h3, h4, h5⟩ := failLabels_printer s.node.label.queue { s.node with label := { s.node.label with
        printTimer := none, printer := .fault, queue := [], abandoned := false,
        readyTimer := if s.node.pins.readyHigh then some 1000 else none } }
    exact ⟨h1, h2, h3, h4, h5, fun l hl => failLabels_decides _ _ _ (Or.inl ⟨l, hl, rfl⟩)⟩

/-! ### Deadlines -/

theorem deadlinesMakeRollsMissing : Claims.DeadlinesMakeRollsMissing := by
  intro s x
  have hwait : ∀ d, dispositionOf s.node x = some (.waiting d) → meaning (.rollDeadline x) s.node =
      if d ≤ s.node.now then decideEntry s.node x .missing else s.node := by
    intro d hd
    show rollDeadline x s.node = _
    unfold rollDeadline
    rw [hd]
  refine ⟨fun d hd hle hx hl => after_meaning ?_, fun d hd hlt => ?_, fun hno => ?_⟩
  · rw [hwait d hd, if_pos hle]
    refine ⟨dispositionOf_decided _ _ _, ?_, ?_⟩
    · rw [decideEntry_eq s.node x .missing hx hl]
      rfl
    · rw [decideEntry_eq s.node x .missing hx hl]
  · exact gives_of_meaning (c := .rollDeadline x) ((hwait d hd).trans (if_neg (Nat.not_le.2 hlt)))
  · refine gives_of_meaning (c := .rollDeadline x) ?_
    show rollDeadline x s.node = s.node
    unfold rollDeadline
    split
    · next d hd =>
      rcases hno with h | h | ⟨out, h⟩
      · rw [h] at hd
        cases hd
      · rw [h] at hd
        cases hd
      · rw [h] at hd
        cases hd
    · rfl

/-! ### The own LABELLED -/

theorem applyLabelled_outcomes (n : Node) (k x : Nat) (out : LabelOutcome) :
    (applyLabelled n k x out).label.outcomes = n.label.outcomes ∧ (applyLabelled n k x out).link = n.link ∧
    (applyLabelled n k x out).image = n.image := by
  unfold applyLabelled
  split <;> exact ⟨rfl, rfl, rfl⟩

/-- R139: a LABEL node has no Hold Unit. -/
theorem holdSettle_label_role (n : Node) (h : isRole n .label = true) : holdSettle n = n := by
  have hno : holdRole n = false := by
    unfold holdRole eyeRole isRole at *
    cases hi : n.image with
    | none => rfl
    | some c =>
      rw [hi] at h
      have hc : c.role = .label := by simpa using h
      simp [hc]
  exact if_pos (by rw [hno]; rfl)

theorem completedOutcomesLeave : Claims.CompletedOutcomesLeave := by
  intro s e rest x serial out hst hrole hs hq he hr
  have hsends : Sends s (.labelled x out) (.labelled serial) := ⟨hst, hs, hr, by rw [hq, he]; rfl⟩
  refine after_meaning ?_
  let m := ownNode s.node (.labelled x out)
  have hm : meaning (.labelled (ownOrigin s) x out) s.node =
      holdSettle (clearFrame (dropOutcome (applyLabelled m (cfg s.node).station x out) serial)) :=
    completeFrame_sent s (.labelled x out) (.labelled serial) hsends rfl rfl
  obtain ⟨h1, h2, h3⟩ := applyLabelled_outcomes m (cfg s.node).station x out
  have hlab : isRole (clearFrame (dropOutcome (applyLabelled m (cfg s.node).station x out) serial)) .label = true := by
    unfold isRole
    have himg : (clearFrame (dropOutcome (applyLabelled m (cfg s.node).station x out) serial)).image = s.node.image := h3
    rw [himg]
    exact hrole
  have hgoal : (clearFrame (dropOutcome (applyLabelled m (cfg s.node).station x out) serial)).link.queue = rest ∧
      (clearFrame (dropOutcome (applyLabelled m (cfg s.node).station x out) serial)).label.outcomes =
        s.node.label.outcomes.filter fun o => decide (o.serial ≠ serial) := by
    refine ⟨?_, ?_⟩
    · show (applyLabelled m (cfg s.node).station x out).link.queue = rest
      rw [h2]
      show s.node.link.queue.drop 1 = rest
      rw [hq]
      rfl
    · show (applyLabelled m (cfg s.node).station x out).label.outcomes.filter _ = _
      rw [h1]
      rfl
  rw [← holdSettle_label_role _ hlab, ← hm] at hgoal
  exact hgoal

/-- Settles O53: the print by its end, the timers by what they start, a deadline by the disposition it finds, the own LABELLED by its
serial. -/
theorem printsAndDeadlinesDecideRolls : Obligations.PrintsAndDeadlinesDecideRolls :=
  ⟨readyEndsThePrint, printerTimersMoveThePrinter, deadlinesMakeRollsMissing, completedOutcomesLeave⟩

end Sys2Proof.Proofs
end

/-! PROOFS. The close of the resume window: the numbering of the owners, and the held requests (O36). -/
section
namespace Sys2Proof.Proofs
open Sys2Proof.Machine Sys2Proof.Laws Sys2Proof.Claims

/-! ### The openings that were held -/

theorem openBatch_linkRest (n : Node) (f : Nat) (r : BatchReason) : linkRest (openBatch n f r).link = linkRest n.link := by
  cases hc : n.batch.nextCode with
  | none =>
    unfold openBatch
    rw [hc]
  | some code =>
    by_cases hold : ∃ l, n.batch.lastDecided = some l ∧ newer repeatRange f l = false
    · obtain ⟨l, hl, hnew⟩ := hold
      rw [openBatch_old n f l r hl hnew]
    · rw [openBatch_made n f code r hc fun l hl => by
        refine Classical.byContradiction fun hnew => ?_
        exact hold ⟨l, hl, eq_false_of_ne_true hnew⟩]
      exact offerAgain_linkRest _ _ _ _ _

theorem formOrTest_linkRest (n : Node) (g : Graded) : linkRest (formOrTest n g).1.link = linkRest n.link := by
  unfold formOrTest
  split
  · dsimp only
    split
    · rfl
    · split
      · exact (formMean_formed n _).rest
      · split <;> rfl
  · rfl

theorem passHeld_linkRest (l : List Graded) (n : Node) : linkRest (passHeld l n).1.link = linkRest n.link := by
  induction l generalizing n with
  | nil => rfl
  | cons g gs ih =>
    have h := formOrTest_linkRest n g
    unfold passHeld
    split
    · next m f hm => rw [hm] at h; exact h
    · next m hm => rw [hm] at h; exact (ih m).trans h

theorem decideOpening_linkRest (n : Node) (f : Nat) (r : BatchReason) :
    linkRest (decideOpening n f r).link = linkRest n.link := by
  have hrelease : ∀ m : Node, linkRest (releaseWatch m).1.link = linkRest m.link := by
    intro m
    unfold releaseWatch
    split
    · rfl
    · exact passHeld_linkRest _ _
  unfold decideOpening decideDrift
  split
  · rfl
  · split
    · rfl
    · split
      · rfl
      · split
        · rfl
        · dsimp only
          split <;> simp only [openBatch_linkRest, hrelease]

theorem batchStart_linkRest (n : Node) : linkRest (batchStart n).link = linkRest n.link := by
  have hfold : ∀ (l : List (Nat × BatchReason)) (m : Node),
      linkRest (l.foldl (fun m o => decideOpening m o.1 o.2) m).link = linkRest m.link := by
    intro l
    induction l with
    | nil => exact fun _ => rfl
    | cons o os ih => exact fun m => (ih _).trans (decideOpening_linkRest m o.1 o.2)
  unfold batchStart
  split
  · exact hfold _ _
  · rfl

/-! ### The requests that were held -/

/-- What the taking of a request leaves to the other units. -/
structure Takes (a b : Node) : Prop where
  frame : a = { b with job := a.job, hold := a.hold, link := a.link, port := a.port }
  rest : linkRest a.link = linkRest b.link

theorem Takes.self (n : Node) : Takes n n := ⟨rfl, rfl⟩

theorem Takes.trans {a b c : Node} (h1 : Takes a b) (h2 : Takes b c) : Takes a c := by
  refine ⟨?_, h1.rest.trans h2.rest⟩
  have h := h1.frame
  rw [h2.frame] at h
  exact h

theorem holdSettle_takes (n : Node) : Takes (holdSettle n) n := by
  have h := holdSettle_eq n
  refine ⟨?_, holdSettle_linkRest n⟩
  generalize holdSettle n = k at h ⊢
  rw [h]

theorem offerAgain_takes (n : Node) (t : Telegram) (r : Bool) (b : OfferBy) (o : Reoffer) : Takes (offerAgain n t r b o) n := by
  refine ⟨?_, offerAgain_linkRest n t r b o⟩
  have h := offerAgain_eq n t r b o
  generalize offerAgain n t r b o = k at h ⊢
  rw [h]

theorem takeClearHold_takes (n : Node) : Takes (takeClearHold n) n := by
  unfold takeClearHold
  split
  · exact ⟨rfl, rfl⟩
  · obtain ⟨hframe, -, hrest⟩ := clearHold_holdOffers { n with hold := { n.hold with operator := false } }
      (holdReference { n with hold := { n.hold with operator := false } })
    refine ⟨?_, hrest⟩
    dsimp only
    generalize clearHold _ _ = k at hframe ⊢
    rw [hframe]

theorem decideJob_takes (n : Node) (q : NewJobRequest) : Takes (decideJob n q) n := by
  have hrefuse : Takes (refuseJob n q) n := by
    unfold refuseJob offerPlain
    refine ⟨?_, enqueue_linkRest n _ false .plain⟩
    rw [enqueue_eq]
    rfl
  unfold decideJob
  split
  · split
    · exact hrefuse
    · unfold offerJob
      exact (offerAgain_takes _ _ _ _ _).trans ⟨rfl, rfl⟩
  · exact hrefuse

theorem takeHeldRequest_takes (n : Node) (q : HeldRequest) : Takes (takeHeldRequest n q) n := by
  unfold takeHeldRequest takeHoldOn
  split
  · refine (holdSettle_takes _).trans ?_
    split
    · split <;> exact ⟨rfl, rfl⟩
    · exact takeClearHold_takes n
  · split
    · exact ⟨rfl, rfl⟩
    · exact decideJob_takes n _

theorem takeHeld_takes (n : Node) : Takes (takeHeld n) n := by
  have hfold : ∀ (l : List HeldRequest) (m : Node), Takes (l.foldl takeHeldRequest m) m := by
    intro l
    induction l with
    | nil => exact .self
    | cons q qs ih => exact fun m => (ih _).trans (takeHeldRequest_takes m q)
  unfold takeHeld
  exact (hfold _ _).trans ⟨rfl, rfl⟩

/-! ### The starts of the owners -/

/-- The node with its resume window closed, before the owners start. -/
def windowClosed (n : Node) : Node := { n with link := { n.link with resume := none } }

/-- The node whose owners have started their numbering. -/
def ownersStarted (n : Node) : Node := rollStart (batchStart (keyStart (windowClosed n)))

theorem windowClose_meaning (s : State) (hr : s.node.link.resume = some 0) (hj : isJoined s.node = true) :
    meaning .resumeWindowClose s.node = holdSettle (takeHeld (holdStart (ownersStarted s.node))) := by
  show resumeWindowClose s.node = _
  unfold resumeWindowClose
  rw [if_pos hr]
  exact if_pos hj

/-- What the Hold Unit and the held requests do behind the owners' starts. -/
theorem windowClose_takes (n : Node) : Takes (holdSettle (takeHeld (holdStart (ownersStarted n)))) (ownersStarted n) := by
  have hstart : Takes (holdStart (ownersStarted n)) (ownersStarted n) := (holdSettle_takes _).trans ⟨rfl, rfl⟩
  exact ((holdSettle_takes _).trans (takeHeld_takes _)).trans hstart

theorem isRole_only {n : Node} {r q : Role} (h : isRole n r = true) (hne : q ≠ r) : isRole n q = false := by
  unfold isRole at h ⊢
  rw [decide_eq_true_eq] at h
  rw [h, decide_eq_false_iff_not]
  exact fun hq => hne (Option.some.inj hq).symm

theorem keyStart_other (n : Node) (h : isRole n .key = false) : keyStart n = n :=
  if_neg (by rintro ⟨hk, -⟩; rw [h] at hk; cases hk)

theorem batchStart_other (n : Node) (h : isRole n .shade = false) : batchStart n = n :=
  if_neg (by rintro ⟨hk, -⟩; rw [h] at hk; cases hk)

theorem rollStart_other (n : Node) (h : isRole n .rewind = false) : rollStart n = n :=
  if_neg (by rintro ⟨hk, -⟩; rw [h] at hk; cases hk)

/-- The KEY that starts its numbering. -/
def keyStarted (n : Node) : Node :=
  { windowClosed n with
    track := { n.track with nextRepeat := some (numberAfter repeatRange n.link.newestRepeat), prevIndex := none, running := true },
    job := { n.job with nextJob := some (numberAfter jobRange n.link.newestJob) } }

theorem ownersStarted_key (n : Node) (h : isRole n .key = true) (hj : isJoined n = true) : ownersStarted n = keyStarted n := by
  have hkey : keyStart (windowClosed n) = keyStarted n := if_pos ⟨h, hj⟩
  unfold ownersStarted
  rw [hkey, batchStart_other (keyStarted n) (isRole_only (r := .key) h (by decide)),
    rollStart_other (keyStarted n) (isRole_only (r := .key) h (by decide))]

theorem ownersStarted_shade (n : Node) (h : isRole n .shade = true) (hj : isJoined n = true) (hheld : n.batch.heldOpenings = []) :
    (ownersStarted n).batch.nextCode = some (numberAfter batchRange n.link.newestBatch) := by
  have hbatch : batchStart (windowClosed n) = { windowClosed n with batch := (batchStart (windowClosed n)).batch } ∧
      (batchStart (windowClosed n)).batch.nextCode = some (numberAfter batchRange n.link.newestBatch) := by
    unfold batchStart
    rw [if_pos ⟨h, hj⟩]
    dsimp only
    rw [show (windowClosed n).batch.heldOpenings = [] from hheld]
    exact ⟨rfl, rfl⟩
  obtain ⟨hframe, hcode⟩ := hbatch
  unfold ownersStarted
  rw [keyStart_other (windowClosed n) (isRole_only (r := .shade) h (by decide)), rollStart_other, hcode]
  rw [hframe]
  exact isRole_only (r := .shade) h (by decide)

theorem ownersStarted_rewind (n : Node) (h : isRole n .rewind = true) (hj : isJoined n = true) :
    (ownersStarted n).roll.nextRoll = some (numberAfter rollRange n.link.newestRoll) := by
  unfold ownersStarted
  rw [keyStart_other (windowClosed n) (isRole_only (r := .rewind) h (by decide)),
    batchStart_other (windowClosed n) (isRole_only (r := .rewind) h (by decide))]
  unfold rollStart
  rw [if_pos ⟨h, hj⟩]
  rfl

theorem ownersStarted_resume (n : Node) : (ownersStarted n).link.resume = none := by
  have hroll : ∀ m : Node, (rollStart m).link = m.link := by
    intro m
    unfold rollStart
    split <;> rfl
  have hkey : (keyStart (windowClosed n)).link = (windowClosed n).link := by
    unfold keyStart
    split <;> rfl
  unfold ownersStarted
  rw [hroll, (linkRest_fields (batchStart_linkRest _)).2.2.2.2.2.1, hkey]
  rfl

theorem ownersStartTheirNumbers : Claims.OwnersStartTheirNumbers := by
  intro s hr hj
  refine after_meaning ?_
  rw [windowClose_meaning s hr hj]
  have htakes := windowClose_takes s.node
  refine ⟨?_, fun hkey => ⟨?_, ?_, ?_, fun hheld => ?_⟩, fun hshade hheld => ?_, fun hrewind => ?_⟩
  · rw [(linkRest_fields htakes.rest).2.2.2.2.2.1, ownersStarted_resume]
  · rw [htakes.frame, ownersStarted_key _ hkey hj]
    rfl
  · rw [htakes.frame, ownersStarted_key _ hkey hj]
    rfl
  · rw [htakes.frame, ownersStarted_key _ hkey hj]
    rfl
  · have hnone : (holdStart (keyStarted s.node)).job.held = [] := by
      unfold holdStart
      rw [holdSettle_job]
      exact hheld
    rw [ownersStarted_key _ hkey hj, takeHeld_none _ hnone, holdSettle_job]
    show (holdStart (keyStarted s.node)).job.nextJob = _
    unfold holdStart
    rw [holdSettle_job]
    rfl
  · rw [htakes.frame]
    exact ownersStarted_shade _ hshade hj hheld
  · rw [htakes.frame]
    exact ownersStarted_rewind _ hrewind hj

/-! ### The operator's requests that were held -/

/-- The bits of OPERATOR alone. -/
theorem operator_bits : ∀ i, i < 16 → (0x200 : CauseSet).getLsbD i = decide (i = 9) := by decide

/-- With no other factor the factor set is OPERATOR or none. -/
theorem factorSet_operator_alone (n : Node) (u : HoldUnit) (l : Link) (p : Port) (hr : holdRole n = true)
    (hm : (cfg n).factorMask.getLsbD 9 = true) (hf : factorSet n = 0) (hl : l.linkFault = n.link.linkFault) :
    factorSet { n with hold := u, link := l, port := p } = if u.operator then 0x200 else 0 := by
  refine BitVec.eq_of_getLsbD_eq fun i hi => ?_
  unfold factorSet at hf ⊢
  rw [if_pos hr] at hf
  rw [if_pos (show holdRole { n with hold := u, link := l, port := p } = true from hr), BitVec.getLsbD_and]
  have hbit := congrArg (fun c : CauseSet => c.getLsbD i) hf
  rw [BitVec.getLsbD_and] at hbit
  by_cases h9 : i = 9
  · subst h9
    rw [factorInputs_operator, show (cfg { n with hold := u, link := l, port := p }).factorMask.getLsbD 9 = true from hm,
      Bool.and_true]
    cases u.operator <;> decide
  · rw [factorInputs_hold n u l p hl i hi h9]
    refine hbit.trans ?_
    cases u.operator with
    | true => exact (BitVec.getLsbD_zero).trans ((operator_bits i hi).trans (decide_eq_false h9)).symm
    | false => rfl

/-- R139: a factor set that has not changed and is not empty leaves the Hold Unit as it is. -/
theorem holdAbsorb_steady (n : Node) (h : n.hold.seen = factorSet n) (hf : factorSet n ≠ 0) : holdAbsorb n = n := by
  have hnone : factorSet n &&& ~~~n.hold.seen = 0 := by
    rw [h]
    exact BitVec.and_not_self _
  unfold holdAbsorb
  dsimp only
  rw [if_pos hnone, beginQuiet_factor _ _ hf, ← h]

theorem holdOffer_free (n : Node) (w : Statement) (hw : n.hold.wanted = some w) (hi : n.hold.inOffer = none)
    (hwait : n.hold.waiting = false) (hj : isJoined n = true) (hd : downQueued n = false) (hl : n.link.queue.length < 16) :
    holdOffer n = { n with
      hold := { n.hold with inOffer := some w },
      link := { n.link with queue := n.link.queue ++
        [{ telegram := statementTelegram w, restate := false, offerBy := .hold }] } } := by
  unfold holdOffer
  rw [hw]
  dsimp only
  rw [if_neg (by simp [hi, hwait]), enqueue_joined n _ false .hold hj hd hl]

/-- The state of a Hold Unit with a hold for OPERATOR from repeat `x` on, whose SET is wanted and `o` in offer. -/
def operatorUnit (x : Nat) (o : Option Statement) : HoldUnit :=
  { operator := true, own := some { first := x, causes := 0x200 }, state := .held, seen := 0x200,
    wanted := some (.set x 0x200), inOffer := o }

/-- The node whose Hold Unit has set that hold and offered its SET. -/
def operatorNode (n : Node) : Node :=
  { n with
    hold := operatorUnit (holdReference n) (some (.set (holdReference n) 0x200)),
    link := { n.link with queue := n.link.queue ++
      [{ telegram := .holdSet (holdReference n) 0x200, restate := false, offerBy := .hold }] },
    port := { n.port with attention := n.port.attention ||| attHold } }

/-- HOLD_ON at a Hold Unit in its reset state with no factor: the hold is set and its SET offered. -/
theorem holdOn_sets (n : Node) (hw : holdWorks n = true) (hm : (cfg n).factorMask.getLsbD 9 = true) (hf : factorSet n = 0)
    (hu : n.hold = {}) (hl : n.link.queue.length < 16) (hd : downQueued n = false) :
    holdSettle (takeHoldOn n) = operatorNode n := by
  have hr : holdRole n = true := by
    unfold holdWorks at hw
    simp only [Bool.and_eq_true] at hw
    exact hw.1.1
  have hj : isJoined n = true := by
    unfold holdWorks at hw
    simp only [Bool.and_eq_true] at hw
    exact hw.1.2
  have hfactor : ∀ (u : HoldUnit) (l : Link) (p : Port), u.operator = true → l.linkFault = n.link.linkFault →
      factorSet { n with hold := u, link := l, port := p } = 0x200 := by
    intro u l p ho hlf
    rw [factorSet_operator_alone n u l p hr hm hf hlf, ho]
    rfl
  have htake : takeHoldOn n = { n with hold := { operator := true } } := by
    unfold takeHoldOn
    rw [if_pos hm, hu]
  have habs : holdAbsorb { n with hold := { operator := true } } = { n with
      hold := operatorUnit (holdReference n) none,
      port := { n.port with attention := n.port.attention ||| attHold } } := by
    unfold holdAbsorb
    dsimp only
    rw [hfactor { operator := true } n.link n.port rfl rfl, if_neg (by decide), beginQuiet_factor _ _ (by decide)]
    rfl
  rw [htake]
  unfold holdSettle
  rw [if_neg (by rw [show holdRole { n with hold := { operator := true } } = true from hr]; decide),
    if_neg (by rw [show holdWorks { n with hold := { operator := true } } = true from hw]; decide), habs]
  dsimp only
  rw [if_neg (by simp [operatorUnit])]
  unfold holdOfferWanted
  rw [holdOffer_free _ (.set (holdReference n) 0x200)]
  · refine holdAbsorb_steady _ ?_ ?_
    · exact (hfactor _ _ _ rfl rfl).symm
    · rw [hfactor]
      · decide
      · rfl
      · rfl
  · rfl
  · rfl
  · rfl
  · exact hj
  · exact hd
  · exact hl

/-- CLEAR_HOLD while that SET is in offer: the hold is cleared, and its CLEAR is wanted behind the SET. -/
theorem clearHold_wanted (n : Node) (x : Nat) (o : Statement) (hw : holdWorks n = true)
    (hm : (cfg n).factorMask.getLsbD 9 = true) (hu : n.hold = operatorUnit x (some o))
    (hf : factorSet { n with hold := {} } = 0) :
    ∃ p : Port, p.refusals = n.port.refusals ∧ holdSettle (takeClearHold n) = { n with
      hold := { wanted := some (.clear (holdReference n) 0x200), inOffer := some o }, port := p } := by
  have hr : holdRole n = true := by
    unfold holdWorks at hw
    simp only [Bool.and_eq_true] at hw
    exact hw.1.1
  have hfactor : ∀ (u : HoldUnit) (p : Port), factorSet { n with hold := u, port := p } = if u.operator then 0x200 else 0 :=
    fun u p => factorSet_operator_alone { n with hold := {} } u n.link p hr hm hf rfl
  have hother : otherFactor n = false := by
    have hn : factorSet n = 0x200 := (hfactor n.hold n.port).trans (by rw [hu]; rfl)
    unfold otherFactor
    rw [hn]
    decide
  have hcleared : operatorCleared n { first := x, causes := 0x200 } = { n with
      hold := { seen := 0x200, wanted := some (.clear (holdReference n) 0x200), inOffer := some o },
      port := { n.port with attention := n.port.attention ||| attHold } } := by
    unfold operatorCleared
    rw [holdOffer_busy]
    · unfold setHoldState
      dsimp only
      rw [hu, if_neg (by simp [operatorUnit])]
      rfl
    · rw [setHoldState_hold, hu]
      simp [operatorUnit]
  have hclear : takeClearHold n = { n with
      hold := { wanted := some (.clear (holdReference n) 0x200), inOffer := some o },
      port := { n.port with attention := n.port.attention ||| attHold } } := by
    rw [takeClearHold_clears n { first := x, causes := 0x200 } (by rw [hu]; rfl) (by rw [hu]; simp [operatorUnit]) hother, hcleared]
    rw [hcleared, hfactor]
    rfl
  refine ⟨{ n.port with attention := n.port.attention ||| attHold }, rfl, ?_⟩
  rw [hclear]
  exact holdSettle_idle _ hw (hfactor _ _) (by simp)

/-- The start of the numbering is no input of the factors of a KEY. -/
theorem factorSet_keyStarted (n : Node) (hk : isRole n .key = true) : factorSet (keyStarted n) = factorSet n := by
  have heye : eyeRole n = false := by
    unfold eyeRole
    rw [isRole_only hk (by decide), isRole_only hk (by decide), isRole_only hk (by decide), isRole_only hk (by decide)]
    rfl
  have hloop : loopRole n = false := by
    unfold loopRole
    rw [isRole_only hk (by decide), isRole_only hk (by decide)]
    rfl
  have hinputs : factorInputs (keyStarted n) = factorInputs n := by
    have hreg : registerUnlocked (keyStarted n) = registerUnlocked n := by
      unfold registerUnlocked
      rw [hloop, show loopRole (keyStarted n) = false from hloop]
      rfl
    have hmark : markLost (keyStarted n) = markLost n := by
      unfold markLost
      rw [heye, show eyeRole (keyStarted n) = false from heye]
      rfl
    unfold factorInputs
    rw [hreg, hmark]
    rfl
  unfold factorSet
  rw [hinputs]
  rfl

/-- HOLD_ON and then CLEAR_HOLD at a Hold Unit in its reset state: the hold is set and cleared, the CLEAR wanted. -/
theorem holdOn_clearHold (n : Node) (hw : holdWorks n = true) (hm : (cfg n).factorMask.getLsbD 9 = true) (hf : factorSet n = 0)
    (hu : n.hold = {}) (hl : n.link.queue.length < 16) (hd : downQueued n = false) :
    ∃ (l : Link) (p : Port), p.refusals = n.port.refusals ∧
      holdSettle (holdSettle (takeClearHold (holdSettle (takeHoldOn n)))) = { n with
        hold := { wanted := some (.clear (holdReference n) 0x200), inOffer := some (.set (holdReference n) 0x200) },
        link := l, port := p } := by
  have hr : holdRole n = true := by
    unfold holdWorks at hw
    simp only [Bool.and_eq_true] at hw
    exact hw.1.1
  have hzero : ∀ (u : HoldUnit) (p : Port), u.operator = false →
      factorSet { operatorNode n with hold := u, port := p } = 0 := fun u p ho =>
    (factorSet_operator_alone n u (operatorNode n).link p hr hm hf rfl).trans (by rw [ho]; rfl)
  obtain ⟨p, hp, hclear⟩ := clearHold_wanted (operatorNode n) (holdReference n) (.set (holdReference n) 0x200) hw hm rfl
    (hzero {} _ rfl)
  rw [holdOn_sets n hw hm hf hu hl hd, hclear]
  refine ⟨(operatorNode n).link, p, hp, ?_⟩
  exact holdSettle_idle _ hw (hzero _ p rfl) (by simp)

/-- The KEY that starts its numbering and takes its held requests. -/
def keyTaking (n : Node) : Node := { keyStarted n with job := { (keyStarted n).job with held := [] } }

theorem keyTaking_reference (n : Node) (hk : isRole n .key = true) :
    holdReference (keyTaking n) = n.track.newestIssued.getD (numberAfter repeatRange n.link.newestRepeat) := by
  unfold holdReference
  rw [if_pos (show isRole (keyTaking n) .key = true from hk)]
  show (match n.track.newestIssued with
    | some x => x
    | none => numberAfter repeatRange n.link.newestRepeat) = _
  cases n.track.newestIssued <;> rfl

theorem heldOperatorRequests (s : State) (hr : s.node.link.resume = some 0) (hj : isJoined s.node = true)
    (hk : isRole s.node .key = true) (hheld : s.node.job.held = [.operator true, .operator false])
    (hu : s.node.hold = {}) (hf : factorSet s.node = 0) : meaning .resumeWindowClose s.node =
      holdSettle (holdSettle (takeClearHold (holdSettle (takeHoldOn (keyTaking s.node))))) := by
  have hrole : holdRole s.node = true := by
    unfold holdRole
    rw [hk]
    rfl
  have hstart : holdStart (keyStarted s.node) = keyStarted s.node := by
    have hseen : ({ s.node.hold with seen := 0 } : HoldUnit) = (keyStarted s.node).hold := by
      show _ = s.node.hold
      rw [hu]
    have hfk : factorSet (keyStarted s.node) = 0 := (factorSet_keyStarted s.node hk).trans hf
    unfold holdStart
    rw [show ({ keyStarted s.node with hold := { (keyStarted s.node).hold with seen := 0 } } : Node) = keyStarted s.node from
      congrArg (fun u => ({ keyStarted s.node with hold := u } : Node)) hseen,
      holdSettle_idle (keyStarted s.node) (holdWorks_intro hj hrole rfl) hfk (by
        show s.node.hold.state ≠ .held
        rw [hu]
        decide)]
    exact congrArg (fun u => ({ keyStarted s.node with hold := u } : Node)) hseen
  rw [windowClose_meaning s hr hj, ownersStarted_key _ hk hj, hstart]
  unfold takeHeld
  rw [show (keyStarted s.node).job.held = _ from hheld]
  rfl

/-! ### The request for a job that was held -/

theorem heldJobRequest (n : Node) (q : NewJobRequest) (pat : Pattern) (j f : Nat) (hheld : n.job.held = [.newJob q])
    (hnone : n.job.inOffer = none) (hq : q.pattern ≠ 0) (hp : findPattern (cfg n) q.pattern = some pat)
    (hj : n.job.nextJob = some j) (hf : n.track.nextRepeat = some f) :
    (takeHeld n).job = { n.job with held := [], nextJob := some (succIn jobRange j),
                                    inOffer := some ({ number := j, pattern := q.pattern, first := f }, q.station) } ∧
      (takeHeld n).port = n.port := by
  have htake : takeHeld n = decideJob { n with job := { n.job with held := [] } } q := by
    unfold takeHeld
    rw [hheld]
    show takeHeldRequest { n with job := { n.job with held := [] } } (.newJob q) = _
    unfold takeHeldRequest
    exact if_neg (by rw [hnone]; decide)
  rw [htake]
  unfold decideJob
  rw [show cfg { n with job := { n.job with held := [] } } = cfg n from rfl, hp]
  dsimp only
  rw [hj, hf]
  dsimp only
  rw [if_neg hq]
  unfold offerJob
  dsimp only
  rw [offerAgain_eq]
  exact ⟨rfl, rfl⟩

theorem heldRequestsAreTakenInOrder : Claims.HeldRequestsAreTakenInOrder := by
  intro s hr hj hk hq hd
  refine ⟨fun hheld hm hu hf => after_meaning ?_, fun q pat hheld hnone hne hpat => after_meaning ?_⟩
  · have hrole : holdRole s.node = true := by
      unfold holdRole
      rw [hk]
      rfl
    obtain ⟨l, p, hp, hmean⟩ := holdOn_clearHold (keyTaking s.node) (holdWorks_intro (n := keyTaking s.node) hj hrole rfl) hm
      ((factorSet_keyStarted s.node hk).trans hf) hu (Nat.lt_of_lt_of_le hq (by decide)) hd
    rw [heldOperatorRequests s hr hj hk hheld hu hf, hmean, ← keyTaking_reference s.node hk]
    exact ⟨rfl, rfl, rfl, hp, rfl, rfl⟩
  · have hrefuse := holdSettle_refusals { keyStarted s.node with hold := { s.node.hold with seen := 0 } }
    obtain ⟨hjob, hport⟩ := heldJobRequest (holdStart (keyStarted s.node)) q pat
      (numberAfter jobRange s.node.link.newestJob) (numberAfter repeatRange s.node.link.newestRepeat)
      (by unfold holdStart; rw [holdSettle_job]; exact hheld) (by unfold holdStart; rw [holdSettle_job]; exact hnone) hne
      (by unfold holdStart; rw [cfg_holdSettle]; exact hpat) (by unfold holdStart; rw [holdSettle_job]; rfl)
      (by unfold holdStart; rw [holdSettle_track]; rfl)
    rw [windowClose_meaning s hr hj, ownersStarted_key _ hk hj, holdSettle_refusals, holdSettle_job, hjob, hport]
    exact ⟨rfl, hrefuse, rfl⟩

/-- Settles O36: the owners' starts stand, for the Hold Unit and the held requests write none of them; HOLD_ON and CLEAR_HOLD are
taken one behind the other from the Hold Unit's reset state. -/
theorem numberingStartsAtTheWindowClose : Obligations.NumberingStartsAtTheWindowClose :=
  ⟨ownersStartTheirNumbers, heldRequestsAreTakenInOrder⟩

end Sys2Proof.Proofs
end

/-! PROOFS. Leaving JOINED and muting: what they keep, and the voids and clash marks that mute the node (R24, R27). -/
section
namespace Sys2Proof.Proofs
open Sys2Proof.Machine Sys2Proof.Laws Sys2Proof.Claims

/-! ### Leaving JOINED (R48, R70, R72, R83, R106, R138, R143, R175, R187) -/

/-- What the blocks that leave JOINED keep: the state of the node, its peers, the records, the lists and the queue. -/
structure Leaves (a b : Node) : Prop where
  frame : a = { b with
    job := a.job, track := a.track, loop := a.loop, nip := a.nip, trig := a.trig, shade := a.shade, batch := a.batch,
    roll := a.roll, label := a.label, hold := a.hold, link := a.link, port := a.port }
  table : a.track.table = b.track.table
  rolls : a.roll.list = b.roll.list
  holds : a.hold.list = b.hold.list
  link : a.link = { b.link with
    restBatch := a.link.restBatch, restHold := a.link.restHold, restRoll := a.link.restRoll,
    refusedOffers := a.link.refusedOffers }
  port : Attends b.port a.port

theorem Leaves.self (n : Node) : Leaves n n := ⟨rfl, rfl, rfl, rfl, rfl, .self _⟩

theorem Leaves.trans {a b c : Node} (h1 : Leaves a b) (h2 : Leaves b c) : Leaves a c where
  frame := by
    have h := h1.frame
    rw [h2.frame] at h
    exact h
  table := h1.table.trans h2.table
  rolls := h1.rolls.trans h2.rolls
  holds := h1.holds.trans h2.holds
  link := by
    have h := h1.link
    rw [h2.link] at h
    exact h
  port := h2.port.trans h1.port

theorem nipLeave_leaves (n : Node) : Leaves (nipLeave n) n := by
  unfold nipLeave
  split
  · rw [cancelRegular_eq, openNip_eq]
    exact ⟨rfl, rfl, rfl, rfl, rfl, .self _⟩
  · exact .self n

theorem loopToOpen_leaves (n : Node) : Leaves (loopToOpen n) n := by
  rw [loopToOpen_eq]
  exact ⟨rfl, rfl, rfl, rfl, rfl, .self _⟩

theorem rollLeave_leaves (n : Node) : Leaves (rollLeave n) n := by
  have hfold : ∀ (l : List Nat) (m : Node), Leaves (l.foldl (fun m t => (cancelTrigger m t).1) m) m := by
    intro l
    induction l with
    | nil => exact .self
    | cons t ts ih => exact fun m => (ih _).trans ⟨rfl, rfl, rfl, rfl, rfl, .self _⟩
  unfold rollLeave
  refine Leaves.trans ?_ (hfold (n.roll.plan.filterMap fun e => e.arming.map (·.tag)) n)
  exact ⟨rfl, rfl, rfl, rfl, rfl, .self _⟩

theorem resetHoldUnit_leaves (n : Node) : Leaves (resetHoldUnit n) n := by
  have hstate : Leaves (setHoldState n .clear) n := by
    unfold setHoldState
    split
    · exact .self n
    · exact ⟨rfl, rfl, rfl, rfl, rfl, attend_attends _ _⟩
  unfold resetHoldUnit
  refine Leaves.trans ?_ hstate
  exact ⟨rfl, rfl, rfl, rfl, rfl, .self _⟩

theorem blocksLeave_leaves (n : Node) : Leaves (blocksLeave n) n := by
  have hif : ∀ (c : Bool) (f : Node → Node) (m : Node), Leaves (f m) m → Leaves (if c then f m else m) m := by
    intro c f m h
    cases c
    · exact .self m
    · exact h
  have hjob : Leaves (jobLeave n) n := ⟨rfl, rfl, rfl, rfl, rfl, .self _⟩
  have h1 : Leaves (nipLeave (loopToOpen (jobLeave n))) n := ((nipLeave_leaves _).trans (loopToOpen_leaves _)).trans hjob
  unfold blocksLeave
  refine Leaves.trans (b := _) ⟨rfl, rfl, rfl, rfl, rfl, .self _⟩ ?_
  refine (hif _ resetHoldUnit _ (resetHoldUnit_leaves _)).trans ?_
  refine (hif _ labelLeave _ ⟨rfl, rfl, rfl, rfl, rfl, .self _⟩).trans ?_
  refine (hif _ rollLeave _ (rollLeave_leaves _)).trans ?_
  exact (hif _ resetShadeUnit _ ⟨rfl, rfl, rfl, rfl, rfl, .self _⟩).trans h1

theorem leaveTo_leaves (n : Node) (st : NodeState) : Leaves (leaveTo n st) (setState n st) := by
  unfold leaveTo
  split
  · exact blocksLeave_leaves _
  · exact .self _

theorem leaveTo_outside (n : Node) (st : NodeState) (h : n.st ≠ .joined) : leaveTo n st = setState n st := by
  unfold leaveTo
  exact if_neg fun hj => h hj.1

/-- The fields that the entry of `st` keeps, out of JOINED or not. -/
theorem leaveTo_fields (n : Node) (st : NodeState) :
    (leaveTo n st).st = st ∧ (leaveTo n st).image = n.image ∧ (leaveTo n st).peers = n.peers ∧
    (leaveTo n st).benchMark = n.benchMark ∧ (leaveTo n st).muteCause = n.muteCause ∧
    (leaveTo n st).track.table = n.track.table ∧ (leaveTo n st).roll.list = n.roll.list ∧
    (leaveTo n st).hold.list = n.hold.list := by
  have h := leaveTo_leaves n st
  have hs := setState_eq n st
  refine ⟨?_, ?_, ?_, ?_, ?_, ?_, ?_, ?_⟩
  · rw [h.frame]
    exact setState_st n st
  · rw [h.frame, hs]
  · rw [h.frame, hs]
  · rw [h.frame, hs]
  · rw [h.frame, hs]
  · rw [h.table, hs]
  · rw [h.rolls, hs]
  · rw [h.holds, hs]

theorem leaveTo_link (n : Node) (st : NodeState) : (leaveTo n st).link = { n.link with
    restBatch := (leaveTo n st).link.restBatch, restHold := (leaveTo n st).link.restHold,
    restRoll := (leaveTo n st).link.restRoll, refusedOffers := (leaveTo n st).link.refusedOffers } := by
  have h := (leaveTo_leaves n st).link
  rw [setState_link] at h
  exact h

/-- R199: the entry of another state asserts ATTN. -/
theorem leaveTo_attention (n : Node) (st : NodeState) (h : n.st ≠ st) :
    (leaveTo n st).port.attention &&& attNode = attNode :=
  (leaveTo_leaves n st).port.cause attNode (setState_attention n st h)

/-! ### Muting (R24, R25, R27, R32) -/

/-- The node `a` that `b` becomes by a muting with this cause. -/
structure Muted (c : MuteCause) (a b : Node) : Prop where
  st : a.st = if downQueued b then .down else .muted
  cause : a.muteCause = some c
  queue : a.link.queue = []
  attempts : a.link.attempts = 0
  sending : a.link.sending = false
  w : a.link.w = b.link.w
  completed : a.link.completed = b.link.completed
  voidRun : a.link.voidRun = b.link.voidRun
  peers : a.peers = b.peers
  table : a.track.table = b.track.table
  rolls : a.roll.list = b.roll.list
  attention : b.st ≠ .muted → b.st ≠ .down → a.port.attention &&& attNode = attNode

theorem emptyQueue_eq (n : Node) : emptyQueue n = { n with
    link := { n.link with queue := [], attempts := 0, sending := false, stopped := false, refusedOffers := [] },
    port := (emptyQueue n).port } := by
  unfold emptyQueue
  dsimp only
  split
  · rw [endRequest_eq]
  · rfl

/-- The node of a muting with an empty queue, before its state changes. -/
def muting (n : Node) (c : MuteCause) : Node := { emptyQueue n with muteCause := some c }

theorem goDown_muted (n : Node) (c : MuteCause) (h : downQueued n = true) : Muted c (goDown (muting n c)) n := by
  obtain ⟨hst, -, hpeers, -, hcause, htable, hrolls, -⟩ := leaveTo_fields (muting n c) .down
  have hlink := leaveTo_link (muting n c) .down
  have hatt := leaveTo_attention (muting n c) .down
  have he : muting n c = { n with
      muteCause := some c, port := (emptyQueue n).port,
      link := { n.link with queue := [], attempts := 0, sending := false, stopped := false, refusedOffers := [] } } := by
    unfold muting
    rw [emptyQueue_eq]
  unfold goDown
  generalize leaveTo (muting n c) .down = m at *
  rw [he] at hpeers hcause htable hrolls hatt hlink
  refine ⟨?_, hcause, ?_, ?_, rfl, ?_, ?_, ?_, hpeers, htable, hrolls, fun _ hd => hatt hd⟩
  · rw [h]
    exact hst
  all_goals
    dsimp only
    rw [hlink]

theorem mute_muted (n : Node) (c : MuteCause) : Muted c (mute n c) n := by
  by_cases hd : downQueued n = true
  · have hm : mute n c = goDown (muting n c) := if_pos hd
    rw [hm]
    exact goDown_muted n c hd
  · obtain ⟨hst, -, hpeers, -, -, htable, hrolls, -⟩ := leaveTo_fields (emptyQueue n) .muted
    have hlink := leaveTo_link (emptyQueue n) .muted
    have hatt := leaveTo_attention (emptyQueue n) .muted
    have hm : mute n c = _ := if_neg hd
    rw [hm]
    dsimp only
    generalize leaveTo (emptyQueue n) .muted = m at *
    rw [emptyQueue_eq] at hpeers htable hrolls hatt hlink
    have hcore : Muted c { m with muteCause := some c, link := { m.link with goodRun := 0, sendElapsed := none } } n := by
      refine ⟨?_, rfl, ?_, ?_, ?_, ?_, ?_, ?_, hpeers, htable, hrolls, fun h _ => hatt h⟩
      · rw [if_neg hd]
        exact hst
      all_goals
        dsimp only
        rw [hlink]
    split
    · next h => exact ⟨hcore.st, rfl, hcore.queue, hcore.attempts, hcore.sending, hcore.w, hcore.completed, hcore.voidRun,
        hcore.peers, hcore.table, hcore.rolls, fun hne => absurd h.1 hne⟩
    · exact hcore

/-- R25, R199: outside JOINED a muting changes no block but the link, and asserts ATTN at a node that is not muted so. -/
theorem mute_outside (n : Node) (c : MuteCause) (h : n.st ≠ .joined) (hd : downQueued n = false)
    (hc : n.st = .muted → n.muteCause ≠ some c) :
    mute n c = { n with st := .muted, muteCause := some c, link := (mute n c).link, port := (mute n c).port } ∧
      (mute n c).port.attention &&& attNode = attNode := by
  have hout : (emptyQueue n).st ≠ .joined := by
    rw [emptyQueue_eq]
    exact h
  have hm : mute n c = _ := if_neg (by rw [hd]; exact Bool.false_ne_true)
  rw [hm, leaveTo_outside _ _ hout, setState_eq]
  have he := emptyQueue_eq n
  dsimp only
  split
  · refine ⟨?_, attend_cause _ attNode⟩
    rw [he]
    rfl
  · next hne =>
    have hst : (emptyQueue n).st ≠ .muted := by
      rw [he]
      exact fun hmu => hne ⟨hmu, hc hmu⟩
    refine ⟨?_, setState_attention (emptyQueue n) .muted hst⟩
    generalize (setState (emptyQueue n) .muted).port = p
    rw [he]

theorem Muted.outside {c : MuteCause} {a b : Node} (h : Muted c a b) : a.st ≠ .joined ∧ a.st ≠ .listening := by
  rw [h.st]
  constructor <;> split <;> decide

/-- What a muting sets stands when the step settles. -/
theorem Muted.settled {c : MuteCause} {a b : Node} (h : Muted c a b) : Muted c (holdSettle (clearFrame a)) b := by
  obtain ⟨x, hx⟩ := holdSettle_outside (clearFrame a) h.outside.1
  rw [hx]
  exact ⟨h.st, h.cause, h.queue, h.attempts, h.sending, h.w, h.completed, h.voidRun, h.peers, h.table, h.rolls, h.attention⟩

/-! ### Voids (R27) -/

theorem appliesFrames_tracks {n : Node} (h : appliesFrames n = true) :
    tracksW n = true ∧ n.st ≠ .listening ∧ n.st ≠ .muted ∧ n.st ≠ .down := by
  unfold appliesFrames at h
  rw [Bool.or_eq_true, decide_eq_true_eq, decide_eq_true_eq] at h
  unfold tracksW
  rcases h with h | h <;> rw [h] <;> decide

/-- The node behind the end of another sender's voided frame, its void run `r`. -/
def voidedNode (n : Node) (sender r : Nat) : Node :=
  { n with link := { n.link with
      w := sender, slot := none, heardEnd := true, silentMs := 0, seenVoids := n.link.seenVoids + 1, goodRun := 0, voidRun := r } }

theorem frameVoided_other (n : Node) (sender r : Nat) (ha : appliesFrames n = true) (hs : n.link.sending = false)
    (hr : (if n.link.drove then n.link.voidRun + 1 else 0) = r) :
    frameVoided sender n = holdSettle (clearFrame (listenEnd (muteVoiding (voidedNode n sender r)))) := by
  have hif : ∀ m : Node, appliesFrames m = true → countVoidRun m =
      { m with link := { m.link with voidRun := if m.link.drove then m.link.voidRun + 1 else 0 } } := fun m hm => if_pos hm
  have hfailed : failedNode { n with link := { n.link with w := sender } } = voidedNode n sender n.link.voidRun := rfl
  have hrun : countVoidRun (voidedNode n sender n.link.voidRun) = voidedNode n sender r := by
    rw [hif (voidedNode n sender n.link.voidRun) ha]
    show voidedNode n sender (if n.link.drove then n.link.voidRun + 1 else 0) = _
    rw [hr]
  have hfail : ∀ m : Node, failedEnd m false = holdSettle (clearFrame (listenEnd (muteVoiding (countVoidRun (failedNode m))))) :=
    fun _ => rfl
  unfold frameVoided
  rw [if_pos (appliesFrames_tracks ha).1, hs, Bool.false_and, hfail, hfailed, hrun]

theorem frameVoided_below (n : Node) (sender r : Nat) (ha : appliesFrames n = true) (hs : n.link.sending = false)
    (hr : (if n.link.drove then n.link.voidRun + 1 else 0) = r) (hlt : r < 16) :
    (frameVoided sender n).link.voidRun = r ∧ (frameVoided sender n).link.w = sender ∧
      (frameVoided sender n).link.drove = false ∧ (frameVoided sender n).st = n.st := by
  have hmute : muteVoiding (voidedNode n sender r) = voidedNode n sender r := if_neg fun h => absurd h.2 (Nat.not_le.2 hlt)
  have hlisten : listenEnd (voidedNode n sender r) = voidedNode n sender r :=
    if_neg fun h => (appliesFrames_tracks ha).2.1 h.1
  rw [frameVoided_other n sender r ha hs hr, hmute, hlisten]
  have hrest := holdSettle_linkRest (clearFrame (voidedNode n sender r))
  have hdrove := congrArg Link.drove hrest
  obtain ⟨hw, -, hv, -⟩ := linkRest_fields hrest
  exact ⟨hv, hw, hdrove, by rw [holdSettle_st]; rfl⟩

theorem frameVoided_limit (n : Node) (sender : Nat) (ha : appliesFrames n = true) (hs : n.link.sending = false)
    (hd : n.link.drove = true) (hr : n.link.voidRun = 15) : Muted .voiding (frameVoided sender n) (voidedNode n sender 16) := by
  have hmute : muteVoiding (voidedNode n sender 16) = mute (voidedNode n sender 16) .voiding :=
    if_pos ⟨ha, Nat.le_refl 16⟩
  have hm := mute_muted (voidedNode n sender 16) .voiding
  have hlisten : listenEnd (mute (voidedNode n sender 16) .voiding) = mute (voidedNode n sender 16) .voiding :=
    if_neg fun h => hm.outside.2 h.1
  rw [frameVoided_other n sender 16 ha hs (by rw [hd, hr]; rfl), hmute, hlisten]
  exact hm.settled

theorem sixteenVoidsMuteTheNode : Claims.SixteenVoidsMuteTheNode := by
  intro s sender ha hs
  refine ⟨fun hd hlt => after_meaning ?_, fun hd => after_meaning ?_, fun hd hr hq => after_meaning ?_⟩
  · exact frameVoided_below s.node sender _ ha hs (by rw [hd]; rfl) (by omega)
  · obtain ⟨hv, hw, -, hst⟩ := frameVoided_below s.node sender 0 ha hs (by rw [hd]; rfl) (by decide)
    exact ⟨hv, hw, hst⟩
  · have hm := frameVoided_limit s.node sender ha hs hd hr
    have hhit : voidRunHit (.frameVoided sender) s.node = true := by
      have hv : (occur (.frameVoided sender) s.node).link.voidRun = 16 := hm.voidRun
      unfold voidRunHit
      rw [ha, hv]
      rfl
    have hmean : meaning (.voidRunLimit (.frameVoided sender)) s.node = frameVoided sender s.node := if_pos hhit
    have hst : (frameVoided sender s.node).st = .muted :=
      hm.st.trans (if_neg (by rw [show downQueued (voidedNode s.node sender 16) = false from hq]; exact Bool.false_ne_true))
    rw [hmean]
    exact ⟨hst, hm.cause, hm.queue, hm.attempts, hm.table, hm.rolls⟩

/-! ### Clash marks (R24) -/

theorem clashesMuteTheSender : Claims.ClashesMuteTheSender := by
  intro s hs
  have hm := mute_muted s.node .clash
  have hheader : s.node.link.stopped = false →
      meaning (.senderBitDifference true) s.node = driveClashMark (mute s.node .clash) := by
    intro hstop
    show senderBitDifference true s.node = _
    unfold senderBitDifference
    rw [if_pos ⟨hs, by rw [hstop]; rfl⟩]
    rfl
  have hmark : s.node.link.stopped = true → meaning .clashMarkDetected s.node = mute s.node .clash :=
    fun hstop => if_pos ⟨hs, hstop⟩
  refine ⟨fun hd => ?_, fun hd hstop => ?_, fun hd hstop => after_meaning ?_⟩
  · have hst : (mute s.node .clash).st = .down := hm.st.trans (if_pos hd)
    refine ⟨fun hstop => after_meaning ?_, fun hstop => after_meaning ?_⟩
    · rw [hheader hstop]
      exact ⟨hst, hm.cause, hm.sending, hm.queue, rfl⟩
    · rw [hmark hstop]
      exact ⟨hst, hm.cause, hm.sending, hm.queue⟩
  · have hst : (mute s.node .clash).st = .muted := hm.st.trans (if_neg (by rw [hd]; exact Bool.false_ne_true))
    refine ⟨after_meaning ?_, gives_of_meaning ?_⟩
    · rw [hheader hstop]
      refine ⟨hst, hm.cause, hm.queue, hm.sending, ?_, rfl⟩
      unfold txBits
      rw [show (driveClashMark (mute s.node .clash)).link.sending = false from hm.sending]
      rfl
    · show senderBitDifference false s.node = _
      unfold senderBitDifference
      rw [if_pos ⟨hs, by rw [hstop]; rfl⟩]
      rfl
  · have hst : (mute s.node .clash).st = .muted := hm.st.trans (if_neg (by rw [hd]; exact Bool.false_ne_true))
    rw [hmark hstop]
    exact ⟨hst, hm.cause, hm.queue, hm.sending⟩

end Sys2Proof.Proofs
end

/-! PROOFS. A second station with this node's number (R25): what the application of its frame leaves before the node mutes. -/
section
namespace Sys2Proof.Proofs
open Sys2Proof.Machine Sys2Proof.Laws Sys2Proof.Claims

/-! ### The blocks that take a telegram keep the node state and the link's own part -/

/-- The node `a` has the image and the state of `b`, and its link but for what offers write. -/
structure Stays (a b : Node) : Prop where
  image : a.image = b.image
  st : a.st = b.st
  rest : linkRest a.link = linkRest b.link

theorem Stays.self (n : Node) : Stays n n := ⟨rfl, rfl, rfl⟩

theorem Stays.trans {a b c : Node} (h1 : Stays a b) (h2 : Stays b c) : Stays a c :=
  ⟨h1.image.trans h2.image, h1.st.trans h2.st, h1.rest.trans h2.rest⟩

theorem Takes.stays {a b : Node} (h : Takes a b) : Stays a b := by
  refine ⟨?_, ?_, h.rest⟩ <;> rw [h.frame]

theorem RollOffers.stays {a b : Node} (h : RollOffers a b) : Stays a b := by
  refine ⟨?_, ?_, h.rest⟩ <;> rw [h.frame]

theorem HoldOffers.stays {a b : Node} (h : HoldOffers a b) : Stays a b := by
  refine ⟨?_, ?_, h.rest⟩ <;> rw [h.frame]

theorem decideOpening_stays (n : Node) (f : Nat) (r : BatchReason) : Stays (decideOpening n f r) n := by
  have hview := (decideOpening_shadeKeeps n f r).view
  have himage := congrArg Node.image hview
  have hst := congrArg Node.st hview
  exact ⟨himage, hst, decideOpening_linkRest n f r⟩

theorem offerLabelled_stays (n : Node) (e : OutcomeEntry) : Stays (offerLabelled n e) n := by
  have himage := congrArg Node.image (offerLabelled_sansLabel n e)
  have hst := congrArg Node.st (offerLabelled_sansLabel n e)
  refine ⟨himage, hst, ?_⟩
  have h := enqueue_linkRest n (.labelled e.number e.outcome) false (.labelled e.serial)
  unfold offerLabelled
  split
  · next m hm =>
    rw [hm] at h
    split <;> exact h
  · next m _ _ hm =>
    rw [hm] at h
    exact h

theorem joinOutcome_stays (n : Node) (x : Nat) (o : LabelOutcome) : Stays (joinOutcome n x o) n :=
  (offerLabelled_stays _ _).trans ⟨rfl, rfl, rfl⟩

theorem removeLabel_stays (n : Node) (x : Nat) : Stays (removeLabel n x) n := by
  unfold removeLabel
  dsimp only
  split <;> exact ⟨rfl, rfl, rfl⟩

theorem storeRoll_stays (n : Node) (p : RollContent) : Stays (storeRoll n p) n := by
  have hroom : ∀ c rest, Stays (labelMakesRoom n c rest) n := by
    intro c rest
    unfold labelMakesRoom
    dsimp only
    split
    · exact (joinOutcome_stays _ _ _).trans ⟨rfl, rfl, rfl⟩
    · exact (joinOutcome_stays _ _ _).trans ((removeLabel_stays _ _).trans ⟨rfl, rfl, rfl⟩)
    · exact ⟨rfl, rfl, rfl⟩
  have hmade : Stays (roomForRoll n) n := by
    unfold roomForRoll
    split
    · split
      · exact .self n
      · split
        · exact hroom _ _
        · exact ⟨rfl, rfl, rfl⟩
    · exact .self n
  have hwait : ∀ (m : Node) (x : Nat), Stays (awaitArrival m x) m := by
    intro m x
    unfold awaitArrival
    split <;> exact ⟨rfl, rfl, rfl⟩
  unfold storeRoll
  split
  · exact ⟨rfl, rfl, rfl⟩
  · exact (hwait _ _).trans (Stays.trans (b := roomForRoll n) ⟨rfl, rfl, rfl⟩ hmade)

theorem applyRoll_stays (n : Node) (k : Nat) (r g : Bool) (p : RollContent) : Stays (applyRoll n k r g p) n := by
  have hstored : Stays (retireRun (storeRoll n p) p.first p.count) n :=
    Stays.trans (b := storeRoll n p) ⟨rfl, rfl, rfl⟩ (storeRoll_stays n p)
  have hretire : ∀ (m : Node) (l : Nat), Stays (retireHolds m l) m := fun _ _ => ⟨rfl, rfl, rfl⟩
  unfold applyRoll
  split
  · exact .self n
  · split
    · split <;> exact ⟨rfl, rfl, rfl⟩
    · split
      · exact .self n
      · refine (hretire _ _).trans ?_
        split
        · exact hstored
        · exact (rollClears_holdOffers _ _).stays.trans hstored

theorem newBatch_stays (n : Node) (p : BatchPayload) : Stays (newBatch n false p) n := by
  rw [newBatch_other]
  exact (rollBatch_rollOffers _ _ _).stays.trans ⟨rfl, rfl, rfl⟩

theorem applyBatchOpened_stays (n : Node) (k : Nat) (r : Bool) (p : BatchPayload) : Stays (applyBatchOpened n k r false p) n := by
  unfold applyBatchOpened
  split
  · exact .self n
  · split
    · dsimp only
      split <;> exact ⟨rfl, rfl, rfl⟩
    · split
      · exact .self n
      · exact newBatch_stays n p

theorem applyRequest_stays (n : Node) (k a : Nat) (q : RequestKind) : Stays (applyRequest n k q a) n := by
  have hrefuse : ∀ m : Node, Stays (countRefusal m) m := fun _ => ⟨rfl, rfl, rfl⟩
  have hoperator : ∀ on, Stays (operatorRequest n a on) n := by
    intro on
    unfold operatorRequest takeHoldOn
    split
    · split
      · exact ⟨rfl, rfl, rfl⟩
      · split
        · split <;> exact ⟨rfl, rfl, rfl⟩
        · exact (takeClearHold_takes n).stays
    · exact .self n
  have hnewJob : ∀ r, Stays (newJobRequest n r) n := by
    intro r
    have hrefused : Stays (refuseJob n r) n := by
      unfold refuseJob offerPlain
      have h := enqueue_linkRest n (.jobRefused
        { number := match n.job.given with | some g => g.number | none => 0, pattern := r.pattern, first := 0,
          requester := r.station }) false .plain
      refine ⟨?_, ?_, h⟩ <;> rw [enqueue_eq] <;> rfl
    unfold newJobRequest
    split
    · split
      · split
        · exact ⟨rfl, rfl, rfl⟩
        · exact hrefused
      · exact (decideJob_takes n r).stays
    · exact .self n
  cases q with
  | newJob => exact hnewJob _
  | closeBatch =>
    show Stays (closeBatchRequest n) n
    unfold closeBatchRequest
    split
    · split
      · exact decideOpening_stays n _ _
      · exact hrefuse n
    · exact .self n
  | closeRoll =>
    show Stays (closeRollRequest n) n
    unfold closeRollRequest
    split
    · split
      · exact ⟨rfl, rfl, rfl⟩
      · exact hrefuse n
    · exact .self n
  | holdOn => exact hoperator true
  | clearHold => exact hoperator false

/-! ### The application of a frame with the node's own number -/

/-- The node `a` has the image, w, the completed count and the void run of `b`, and its state, or was benched. -/
structure Stands (a b : Node) : Prop where
  image : a.image = b.image
  st : a.st = b.st ∨ a.st = .benched
  w : a.link.w = b.link.w
  completed : a.link.completed = b.link.completed
  voidRun : a.link.voidRun = b.link.voidRun

theorem Stands.self (n : Node) : Stands n n := ⟨rfl, Or.inl rfl, rfl, rfl, rfl⟩

theorem Stands.trans {a b c : Node} (h1 : Stands a b) (h2 : Stands b c) : Stands a c := by
  refine ⟨h1.image.trans h2.image, ?_, h1.w.trans h2.w, h1.completed.trans h2.completed,
    h1.voidRun.trans h2.voidRun⟩
  rcases h1.st with h | h
  · rw [h]
    exact h2.st
  · exact Or.inr h

theorem Stays.stands {a b : Node} (h : Stays a b) : Stands a b := by
  obtain ⟨hw, hc, hv, -⟩ := linkRest_fields h.rest
  exact ⟨h.image, Or.inl h.st, hw, hc, hv⟩

theorem setPeer_stays (n : Node) (k : Nat) (p : Peer) : Stays (setPeer n k p) n := by
  unfold setPeer
  split <;> exact ⟨rfl, rfl, rfl⟩

theorem closeHoldOf_stays (n : Node) (k : Nat) : Stays (closeHoldOf n k) n := ⟨rfl, rfl, rfl⟩

/-- R191, R194: the node that benches itself, before its queue is cleared. -/
def benchLeft (n : Node) : Node :=
  setPeer (closeHoldOf (leaveTo { n with benchMark := true } .benched) (cfg n).station) (cfg n).station
    { peerAt (closeHoldOf (leaveTo { n with benchMark := true } .benched) (cfg n).station) (cfg n).station with
      state := .benched }

theorem benchSelf_eq (n : Node) : benchSelf n = { benchLeft n with
    link := { (benchLeft n).link with
      queue := benchQueue (benchLeft n).link.sending (benchLeft n).link.queue, attempts := (benchSelf n).link.attempts },
    port := (benchSelf n).port } := by
  unfold benchSelf
  dsimp only
  split
  · rw [endRequest_eq]
    rfl
  · rfl

theorem benchSelf_stands (n : Node) : Stands (benchSelf n) n := by
  obtain ⟨hst, himage, -⟩ := leaveTo_fields { n with benchMark := true } .benched
  have hlink := leaveTo_link { n with benchMark := true } .benched
  have hleft : Stands (leaveTo { n with benchMark := true } .benched) n := by
    refine ⟨himage, Or.inr hst, ?_, ?_, ?_⟩ <;> rw [hlink]
  have hbench : Stands (benchLeft n) n :=
    ((setPeer_stays _ _ _).trans (closeHoldOf_stays _ _)).stands.trans hleft
  rw [benchSelf_eq]
  exact ⟨hbench.image, hbench.st, hbench.w, hbench.completed, hbench.voidRun⟩

theorem checkConflict_stands (n : Node) (j : Nat) : Stands (checkConflict n j) n := by
  have hbench : ∀ (m : Node) (k : Nat), Stands (benchStation m k) m := by
    intro m k
    unfold benchStation
    split
    · split
      · exact benchSelf_stands m
      · exact .self m
    · exact ((closeHoldOf_stays _ k).trans (setPeer_stays m k _)).stands
  have hfold : ∀ (l : List Nat) (m : Node), Stands (l.foldl (fun m k => benchStation m (max j k)) m) m := by
    intro l
    induction l with
    | nil => exact .self
    | cons k ks ih => exact fun m => (ih _).trans (hbench m _)
  exact hfold _ n

/-- R38: the link of a node in its resume window behind a RESUME. -/
def resumedLink (l : Link) (p : ResumePayload) : Link :=
  { l with
    newestRepeat := raiseNumber repeatRange l.newestRepeat p.newestRepeat,
    newestRoll := raiseNumber rollRange l.newestRoll p.newestRoll,
    newestBatch := raiseNumber batchRange l.newestBatch p.newestBatch,
    newestJob := match p.job with
      | some j => raiseNumber jobRange l.newestJob j.number
      | none => l.newestJob }

/-- R38: the Job Unit of a node in its resume window behind a RESUME. -/
def resumedJob (n : Node) (p : ResumePayload) : JobUnit :=
  match p.job with
  | some j => if newerThanGiven n j.number then (giveJob n j).job else n.job
  | none => n.job

theorem resumeNumbers_eq (n : Node) (p : ResumePayload) :
    resumeNumbers n p = { n with link := resumedLink n.link p, job := resumedJob n p } := by
  have hnewer : ∀ x, newerThanGiven { n with link := resumedLink n.link p } x = newerThanGiven n x := fun _ => rfl
  unfold resumeNumbers
  show (match p.job with
    | some j => if newerThanGiven { n with link := resumedLink n.link p } j.number then
        giveJob { n with link := resumedLink n.link p } j else { n with link := resumedLink n.link p }
    | none => { n with link := resumedLink n.link p }) = _
  unfold resumedJob
  cases p.job with
  | none => rfl
  | some j =>
    dsimp only
    rw [hnewer]
    split <;> rfl

theorem applyResume_own (n : Node) (p : ResumePayload) :
    applyResume n (cfg n).station p = if n.link.resume.isSome then resumeNumbers n p else n := by
  have hrole : recordRole n (cfg n).station p.role p.slot = n := if_pos rfl
  unfold applyResume
  dsimp only
  rw [hrole]

theorem resumeNumbers_stands (n : Node) (p : ResumePayload) : Stands (resumeNumbers n p) n := by
  rw [resumeNumbers_eq]
  exact ⟨rfl, Or.inl rfl, rfl, rfl, rfl⟩

theorem handOver_stands (n : Node) (o : Origin) (t : Telegram) (ho : o.sender = (cfg n).station) :
    Stands (handOver n o false false t) n := by
  cases t with
  | join p =>
    have hown : applyJoin n o.sender p = checkConflict (writeOwnEntry (closeHoldOf n o.sender) p.cause) o.sender := if_pos ho
    show Stands (applyJoin n o.sender p) n
    rw [hown]
    exact (checkConflict_stands _ _).trans ((setPeer_stays _ _ _).trans (closeHoldOf_stays n _)).stands
  | resume p =>
    show Stands (applyResume n o.sender p) n
    rw [ho, applyResume_own]
    split
    · exact resumeNumbers_stands n p
    · exact .self n
  | present => exact .self n
  | down c =>
    have hown : applyDown n o.sender c = n := if_pos ho
    show Stands (applyDown n o.sender c) n
    rw [hown]
    exact .self n
  | request k a => exact (applyRequest_stays n o.sender a k).stands
  | jobTaken p =>
    show Stands (applyJobTaken n o.sender p) n
    rw [applyJobTaken_eq, answerJob_eq]
    exact ⟨rfl, Or.inl rfl, rfl, rfl, rfl⟩
  | jobRefused p =>
    show Stands (answerJob n p.requester .refused) n
    rw [answerJob_eq]
    exact ⟨rfl, Or.inl rfl, rfl, rfl, rfl⟩
  | repeat_ p =>
    show Stands (appendRepeat n o.sender p) n
    rw [appendRepeat_eq]
    exact ⟨rfl, Or.inl rfl, rfl, rfl, rfl⟩
  | register p =>
    show Stands (applyRegister n o.sender p) n
    rw [applyRegister_eq]
    exact ⟨rfl, Or.inl rfl, rfl, rfl, rfl⟩
  | shade p =>
    show Stands (applyShade n o.sender p) n
    unfold applyShade
    split <;> exact ⟨rfl, Or.inl rfl, rfl, rfl, rfl⟩
  | batchOpened p => exact (applyBatchOpened_stays n _ _ p).stands
  | batchFixed p v =>
    show Stands (applyBatchFixed n o.sender p v) n
    rw [applyBatchFixed_eq]
    exact ⟨rfl, Or.inl rfl, rfl, rfl, rfl⟩
  | holdSet x c =>
    show Stands (applyHoldSet n o.sender x c) n
    rw [applyHoldSet_eq]
    exact ⟨rfl, Or.inl rfl, rfl, rfl, rfl⟩
  | holdClear x c =>
    show Stands (applyHoldClear n o.sender x) n
    rw [applyHoldClear_eq]
    exact ⟨rfl, Or.inl rfl, rfl, rfl, rfl⟩
  | roll p => exact (applyRoll_stays n _ _ _ p).stands
  | labelled x out =>
    show Stands (applyLabelled n o.sender x out) n
    rw [applyLabelled_eq]
    exact ⟨rfl, Or.inl rfl, rfl, rfl, rfl⟩
  | undefined p => exact .self n

/-! ### The muting (R25) -/

/-- The node at the end of a frame with sender `k`. -/
def heardBy (n : Node) (k : Nat) : Node := hearEnd { n with link := { n.link with w := k } }

theorem completeFrame_second (n : Node) (o : Origin) (t : Telegram) (hw : tracksW n = true) (hown : isOwnFrame n o t = false) :
    completeFrame o t n = holdSettle (clearFrame (if n.st = .listening then
      listenEnd (completeOther (heardBy n o.sender) o t)
      else completeOther (heardBy n o.sender) o t)) := by
  unfold completeFrame
  rw [if_pos hw, hown]
  rfl

/-- A node of a second station's frame mutes for CLASH behind what it applied, whatever else the frame's end would do. -/
theorem clashSecond_mutes (b m : Node) (k : Nat) (hk : k = (cfg m).station) (hw : tracksW m = true)
    (hc : m.st = .muted → m.muteCause ≠ some .clash) :
    goodFrame b (muteVoiding (clashSecond m k)) = mute m .clash := by
  have hm := mute_muted m .clash
  have hclash : clashSecond m k = mute m .clash := by
    unfold clashSecond
    refine if_pos ⟨hk, hw, ?_⟩
    by_cases hst : m.st = .muted
    · simp [hst, hc hst]
    · simp [hst]
  have hvoid : muteVoiding (mute m .clash) = mute m .clash := by
    unfold muteVoiding
    refine if_neg fun h => ?_
    have hst := hm.st
    have ha := h.1
    unfold appliesFrames at ha
    rw [hst] at ha
    split at ha <;> cases ha
  rw [hclash, hvoid]
  unfold goodFrame
  refine if_neg fun h => ?_
  rw [hm.cause] at h
  exact absurd h.2.2 (by decide)

/-- R25: at a node that applies no frame, the second station's frame mutes it for CLASH and does nothing else. -/
theorem second_outside (n : Node) (o : Origin) (t : Telegram) (ha : appliesFrames n = false) (hd : downQueued n = false)
    (ho : o.sender = (cfg n).station) (hw : tracksW n = true) (hown : isOwnFrame n o t = false)
    (hc : n.st = .muted → n.muteCause ≠ some .clash) :
    Muted .clash (completeFrame o t n) (heardBy n o.sender) ∧
    completeFrame o t n = { n with
      st := .muted, muteCause := some .clash, link := (completeFrame o t n).link, port := (completeFrame o t n).port,
      hold := (completeFrame o t n).hold } ∧
    (completeFrame o t n).port.attention &&& attNode = attNode := by
  have hst : (heardBy n o.sender).st ≠ .joined := by
    intro h
    have h' : n.st = .joined := h
    simp [appliesFrames, h'] at ha
  have hm := mute_muted (heardBy n o.sender) .clash
  obtain ⟨hframe, hatt⟩ := mute_outside (heardBy n o.sender) .clash hst hd hc
  have hcount : countVoidRun (countCompleted (heardBy n o.sender)) = heardBy n o.sender := by
    have hif : ∀ m : Node, appliesFrames m = false → countVoidRun (countCompleted m) = m := by
      intro m hma
      simp [countVoidRun, countCompleted, hma]
    exact hif _ ha
  have hother : completeOther (heardBy n o.sender) o t = mute (heardBy n o.sender) .clash := by
    unfold completeOther
    dsimp only
    rw [hcount, if_neg (by rw [show appliesFrames (heardBy n o.sender) = false from ha]; exact Bool.false_ne_true)]
    exact clashSecond_mutes _ _ _ ho hw hc
  rw [completeFrame_second n o t hw hown, hother]
  generalize mute (heardBy n o.sender) .clash = r at hm hframe hatt ⊢
  have hlisten : listenEnd r = r := if_neg fun h => hm.outside.2 h.1
  rw [hlisten, ite_self]
  refine ⟨hm.settled, ?_, ?_⟩
  · obtain ⟨x, hx⟩ := holdSettle_outside (clearFrame r) hm.outside.1
    rw [hx]
    unfold clearFrame
    dsimp only
    rw [hframe]
    rfl
  · exact (holdSettle_attends (clearFrame r)).cause attNode hatt

/-- The node that completes a second station's frame, before the blocks take its telegram. -/
def secondHeard (n : Node) (o : Origin) (t : Telegram) : Node :=
  { n with link := raiseNumbers { n.link with
      w := o.sender, slot := none, heardEnd := true, silentMs := 0, completed := n.link.completed + 1,
      voidRun := if n.link.drove then n.link.voidRun + 1 else 0 } t }

theorem secondHeard_link (n : Node) (o : Origin) (t : Telegram) : (secondHeard n o t).link.w = o.sender ∧
    (secondHeard n o t).link.completed = n.link.completed + 1 ∧ (secondHeard n o t).link.queue = n.link.queue := by
  cases t <;> exact ⟨rfl, rfl, rfl⟩

theorem applyFrame_second (n : Node) (o : Origin) (t : Telegram) (ha : appliesFrames n = true) (ho : o.sender = (cfg n).station) :
    completeOther (heardBy n o.sender) o t =
      goodFrame (heardBy n o.sender)
        (muteVoiding (clashSecond (handOver (secondHeard n o t) o false false t) o.sender)) := by
  have hcount : ∀ m : Node, appliesFrames m = true → countVoidRun (countCompleted m) = { m with link := { m.link with
      completed := m.link.completed + 1, voidRun := if m.link.drove then m.link.voidRun + 1 else 0 } } := by
    intro m hm
    have hc : countCompleted m = { m with link := { m.link with completed := m.link.completed + 1 } } := if_pos hm
    rw [hc]
    exact if_pos hm
  have happly : ∀ m : Node, o.sender = (cfg m).station →
      applyFrame m o false false t = handOver { m with link := raiseNumbers m.link t } o false false t := by
    intro m hm
    have hp : peerFrame m o.sender t = m := if_pos hm
    unfold applyFrame
    rw [hp]
  unfold completeOther
  dsimp only
  rw [hcount (heardBy n o.sender) ha, if_pos, happly]
  · rfl
  · exact ho
  · exact ha

/-- R25: at a node that applies frames, the second station's frame is applied and then mutes it for CLASH. -/
theorem second_applied (n : Node) (o : Origin) (t : Telegram) (ha : appliesFrames n = true) (ho : o.sender = (cfg n).station)
    (hown : isOwnFrame n o t = false) :
    Muted .clash (completeFrame o t n) (handOver (secondHeard n o t) o false false t) := by
  obtain ⟨hw, hlisten, -, -⟩ := appliesFrames_tracks ha
  have hs := handOver_stands (secondHeard n o t) o t ho
  have hst : appliesFrames (handOver (secondHeard n o t) o false false t) = true := by
    unfold appliesFrames at ha ⊢
    rcases hs.st with h | h
    · rw [h]
      exact ha
    · rw [h]
      rfl
  obtain ⟨hw', -, hm', -⟩ := appliesFrames_tracks hst
  rw [completeFrame_second n o t hw hown, if_neg hlisten, applyFrame_second n o t ha ho,
    clashSecond_mutes _ _ _ (ho.trans (congrArg Config.station (cfg_of_image hs.image)).symm) hw' (fun h => absurd h hm')]
  exact (mute_muted _ _).settled

/-- What of the records and of the queue the telegrams leave that start nothing at a second station's number. -/
theorem handOver_quiet (n : Node) (o : Origin) (t : Telegram) (ho : o.sender = (cfg n).station)
    (ht : t = .present ∨ (∃ c, t = .down c) ∨ (∃ p, t = .resume p) ∨ (∃ p, t = .register p) ∨ ∃ p, t = .shade p) :
    (handOver n o false false t).st = n.st ∧ (handOver n o false false t).link.queue = n.link.queue := by
  rcases ht with rfl | ⟨c, rfl⟩ | ⟨p, rfl⟩ | ⟨p, rfl⟩ | ⟨p, rfl⟩
  · exact ⟨rfl, rfl⟩
  · have hown : applyDown n o.sender c = n := if_pos ho
    show (applyDown n o.sender c).st = _ ∧ (applyDown n o.sender c).link.queue = _
    rw [hown]
    exact ⟨rfl, rfl⟩
  · show (applyResume n o.sender p).st = _ ∧ (applyResume n o.sender p).link.queue = _
    rw [ho, applyResume_own]
    split
    · rw [resumeNumbers_eq]
      exact ⟨rfl, rfl⟩
    · exact ⟨rfl, rfl⟩
  · show (applyRegister n o.sender p).st = _ ∧ (applyRegister n o.sender p).link.queue = _
    rw [applyRegister_eq]
    exact ⟨rfl, rfl⟩
  · show (applyShade n o.sender p).st = _ ∧ (applyShade n o.sender p).link.queue = _
    unfold applyShade
    split <;> exact ⟨rfl, rfl⟩

theorem secondStationNumbersMute : Claims.SecondStationNumbersMute := by
  intro o t s ho hw hne hc
  have hown : isOwnFrame s.node o t = false := by
    unfold isOwnFrame
    cases hs : s.node.link.sending with
    | false => rfl
    | true =>
      cases hh : s.node.link.queue.head? with
      | none => simp
      | some e =>
        have h := hne e hs hh
        by_cases ht : e.telegram = t
        · simp [ht, h.resolve_left (fun hn => hn ht)]
        · simp [ht]
  refine ⟨fun ha hd => after_frameOf ?_, fun ha => after_frameOf ?_, fun ha ht => after_frameOf ?_⟩
  · obtain ⟨hm, hframe, hatt⟩ := second_outside s.node o t ha hd ho hw hown hc
    exact ⟨hm.st.trans (if_neg (by rw [show downQueued (heardBy s.node o.sender) = false from hd]; exact Bool.false_ne_true)),
      hm.cause, hm.queue, hm.attempts, hm.sending, hm.w, hm.completed, hatt, by rw [hframe], hm.peers, by rw [hframe],
      by rw [hframe]⟩
  · have hm := second_applied s.node o t ha ho hown
    have hs := handOver_stands (secondHeard s.node o t) o t ho
    obtain ⟨hlw, hlc, -⟩ := secondHeard_link s.node o t
    refine ⟨?_, hm.cause, hm.queue, hm.attempts, hm.sending, hm.w.trans (hs.w.trans hlw), hm.completed.trans (hs.completed.trans hlc)⟩
    rw [hm.st]
    split
    · exact Or.inr rfl
    · exact Or.inl rfl
  · have hm := second_applied s.node o t ha ho hown
    obtain ⟨hst, hqueue⟩ := handOver_quiet (secondHeard s.node o t) o t ho ht
    obtain ⟨-, -, hmu, hdn⟩ := appliesFrames_tracks ha
    refine ⟨?_, hm.attention ?_ ?_, ?_⟩
    · rw [hm.st]
      unfold downQueued
      rw [hqueue, (secondHeard_link s.node o t).2.2]
    · rw [hst]
      exact hmu
    · rw [hst]
      exact hdn
    · rintro p rfl hheld
      rw [hm.table]
      have happ : applyShade (secondHeard s.node o (.shade p)) o.sender p = _ := if_pos hheld
      show (applyShade (secondHeard s.node o (.shade p)) o.sender p).track.table = _
      rw [happ]
      rfl

/-- Settles O31: a muting keeps the records and empties the queue, whether it follows a void run, a clash mark or a second
station's frame; what such a frame does in the blocks first changes neither the node's number nor its tracking of w. -/
theorem voidsAndClashesMute : Obligations.VoidsAndClashesMute :=
  ⟨sixteenVoidsMuteTheNode, clashesMuteTheSender, secondStationNumbersMute⟩

end Sys2Proof.Proofs
end

/-! PROOFS. JOIN and RESUME of another station, and the own JOIN (R35 to R38, R192, R193). -/
section
namespace Sys2Proof.Proofs
open Sys2Proof.Machine Sys2Proof.Laws Sys2Proof.Claims

/-! ### The restates that a JOIN starts (R36, R39) -/

/-- The queue entry of the next restate, if there is one. -/
def restateEntry (b : OfferBy) (t : Option Telegram) : List QEntry :=
  (t.map fun x => { telegram := x, restate := true, offerBy := b }).toList

theorem downQueued_append (n : Node) (l : Link) (more : List QEntry) (hq : l.queue = n.link.queue ++ more)
    (hd : downQueued n = false) (hm : ∀ e ∈ more, isDown e.telegram = false) : downQueued { n with link := l } = false := by
  have hdown : ∀ m : Node, downQueued m = m.link.queue.any fun e => isDown e.telegram := fun _ => rfl
  rw [hdown] at hd ⊢
  rw [hq, List.any_append, hd, Bool.false_or, List.any_eq_false]
  exact fun e he => by rw [hm e he]; exact Bool.false_ne_true

/-- R39: a restate is offered in a queue with room. -/
theorem restate_offered (n : Node) (t : Telegram) (b : OfferBy) (o : Reoffer) (hj : isJoined n = true) (hd : downQueued n = false)
    (hl : n.link.queue.length < 16) :
    offerAgain n t true b o = { n with link := { n.link with queue := n.link.queue ++ restateEntry b (some t) } } :=
  offerAgain_joined n t true b o hj hd hl

/-- What the start of a block's restates does to the link: it takes items and offers the telegram `t`, if there is one. -/
structure Restates (b : OfferBy) (t : Option Telegram) (m n : Node) : Prop where
  frame : m = { n with link := { n.link with
    restBatch := m.link.restBatch, restHold := m.link.restHold, restRoll := m.link.restRoll, queue := m.link.queue } }
  queue : m.link.queue = n.link.queue ++ restateEntry b t
  kind : ∀ x, t = some x → isDown x = false

theorem restateEntry_length (b : OfferBy) (t : Option Telegram) : (restateEntry b t).length ≤ 1 := by
  cases t <;> simp [restateEntry]

theorem Restates.goes_on {b : OfferBy} {t : Option Telegram} {m n : Node} (h : Restates b t m n) (hj : isJoined n = true)
    (hd : downQueued n = false) {k : Nat} (hl : n.link.queue.length + k ≤ 16) :
    isJoined m = true ∧ downQueued m = false ∧ m.link.queue.length + k ≤ 17 := by
  have hlen := restateEntry_length b t
  refine ⟨?_, ?_, ?_⟩
  · rw [h.frame]
    exact hj
  · have hlink := congrArg Node.link h.frame
    have hm : m = { n with link := m.link } := h.frame.trans (congrArg (fun l => { n with link := l }) hlink.symm)
    rw [hm]
    refine downQueued_append n m.link _ h.queue hd fun e he => ?_
    cases t with
    | none => cases he
    | some x =>
      have hx : e.telegram = x := by
        rw [List.mem_singleton.1 he]
      rw [hx]
      exact h.kind x rfl
  · rw [h.queue, List.length_append]
    omega

theorem batchRestate_kind (n : Node) (c : Nat) (f : Bool) (x : Telegram) (h : batchRestate n c f = some x) : isDown x = false := by
  unfold batchRestate at h
  split at h
  · dsimp only at h
    split at h
    · cases h
    · split at h
      · obtain ⟨t, -, rfl⟩ := Option.map_eq_some_iff.mp h
        rfl
      · cases h
        rfl
  · cases h

theorem firstItem_some {α : Type} (f : α → Option Telegram) (l : List α) (x : Telegram) (h : (firstItem f l).1 = some x) :
    ∃ a, f a = some x := by
  induction l with
  | nil => cases h
  | cons a as ih =>
    unfold firstItem at h
    split at h
    · next t ht =>
      cases h
      exact ⟨a, ht⟩
    · exact ih h

/-- The items of the block that restates batches, at its start. -/
def batchNext (n : Node) : Option Telegram × List (Nat × Bool) :=
  firstItem (fun (i : Nat × Bool) => batchRestate n i.1 i.2) n.link.restBatch.items

theorem nextRestateBatch_starts (n : Node) (hj : isJoined n = true) (hd : downQueued n = false) (hl : n.link.queue.length < 16) :
    ∃ t, Restates .restateBatch t (nextRestateBatch n) n ∧ (n.link.restBatch.items = [] → t = none) ∧
      (nextRestateBatch n).link.restHold = n.link.restHold ∧ (nextRestateBatch n).link.restRoll = n.link.restRoll ∧
      (n.link.restBatch.busy = false → t = (batchNext n).1 ∧
        (nextRestateBatch n).link.restBatch = { items := (batchNext n).2, busy := (batchNext n).1.isSome }) := by
  cases hb : n.link.restBatch.busy with
  | true =>
    have he : nextRestateBatch n = n := if_pos hb
    rw [he]
    exact ⟨none, ⟨rfl, by simp [restateEntry], fun _ h => by cases h⟩, fun _ => rfl, rfl, rfl, fun h => by cases h⟩
  | false =>
    have he : nextRestateBatch n = { n with link := { n.link with
        restBatch := { items := (batchNext n).2, busy := (batchNext n).1.isSome },
        queue := n.link.queue ++ restateEntry .restateBatch (batchNext n).1 } } := by
      unfold nextRestateBatch
      rw [if_neg (by rw [hb]; exact Bool.false_ne_true)]
      show (match (batchNext n).1 with
        | none => { n with link := { n.link with
            restBatch := { items := (batchNext n).2, busy := (batchNext n).1.isSome } } }
        | some t => offerAgain { n with link := { n.link with
            restBatch := { items := (batchNext n).2, busy := (batchNext n).1.isSome } } } t true .restateBatch .restateBatch) = _
      cases (batchNext n).1 with
      | none => simp [restateEntry]
      | some t => exact restate_offered { n with link := { n.link with restBatch := _ } } t _ _ hj hd hl
    rw [he]
    refine ⟨(batchNext n).1, ⟨rfl, rfl, fun x hx => ?_⟩, fun h => ?_, rfl, rfl, fun _ => ⟨rfl, rfl⟩⟩
    · obtain ⟨i, hi⟩ := firstItem_some _ _ x hx
      exact batchRestate_kind n i.1 i.2 x hi
    · unfold batchNext
      rw [h]
      rfl

theorem nextRestateHold_starts (n : Node) (hj : isJoined n = true) (hd : downQueued n = false) (hl : n.link.queue.length < 16) :
    ∃ t, Restates .restateHold t (nextRestateHold n) n ∧
      (nextRestateHold n).link.restBatch = n.link.restBatch ∧ (nextRestateHold n).link.restRoll = n.link.restRoll ∧
      (∀ o, n.hold.own = some o → n.link.restHold = { todo := true, busy := false } →
        t = some (.holdSet o.first o.causes)) := by
  by_cases hb : n.link.restHold.busy = true ∨ (!n.link.restHold.todo) = true
  · have he : nextRestateHold n = n := if_pos hb
    rw [he]
    refine ⟨none, ⟨rfl, by simp [restateEntry], fun _ h => by cases h⟩, rfl, rfl, fun o _ h => ?_⟩
    rw [h] at hb
    exact absurd hb (by decide)
  · cases ho : n.hold.own with
    | none =>
      have he : nextRestateHold n = { n with link := { n.link with restHold := { todo := false, busy := false } } } := by
        unfold nextRestateHold
        rw [if_neg hb, ho]
      rw [he]
      exact ⟨none, ⟨rfl, by simp [restateEntry], fun _ h => by cases h⟩, rfl, rfl, fun o h => by cases h⟩
    | some o =>
      have he : nextRestateHold n = { n with link := { n.link with
          restHold := { todo := false, busy := true },
          queue := n.link.queue ++ restateEntry .restateHold (some (.holdSet o.first o.causes)) } } := by
        unfold nextRestateHold
        rw [if_neg hb, ho]
        exact restate_offered { n with link := { n.link with restHold := _ } } _ _ _ hj hd hl
      rw [he]
      refine ⟨some (.holdSet o.first o.causes), ⟨rfl, rfl, fun x hx => ?_⟩, rfl, rfl, fun q hq _ => ?_⟩
      · cases hx
        rfl
      · cases hq
        rfl

/-- The items of the block that restates rolls, at its start. -/
def rollNext (n : Node) : Option Telegram × List Nat :=
  firstItem (fun (x : Nat) => (n.roll.list.find? fun c => decide (c.number = x)).map Telegram.roll) n.link.restRoll.items

theorem nextRestateRoll_starts (n : Node) (hj : isJoined n = true) (hd : downQueued n = false) (hl : n.link.queue.length < 16) :
    ∃ t, Restates .restateRoll t (nextRestateRoll n) n ∧
      (nextRestateRoll n).link.restBatch = n.link.restBatch ∧ (nextRestateRoll n).link.restHold = n.link.restHold ∧
      (n.link.restRoll.busy = false → t = (rollNext n).1 ∧
        (nextRestateRoll n).link.restRoll = { items := (rollNext n).2, busy := (rollNext n).1.isSome }) := by
  cases hb : n.link.restRoll.busy with
  | true =>
    have he : nextRestateRoll n = n := if_pos hb
    rw [he]
    exact ⟨none, ⟨rfl, by simp [restateEntry], fun _ h => by cases h⟩, rfl, rfl, fun h => by cases h⟩
  | false =>
    have he : nextRestateRoll n = { n with link := { n.link with
        restRoll := { items := (rollNext n).2, busy := (rollNext n).1.isSome },
        queue := n.link.queue ++ restateEntry .restateRoll (rollNext n).1 } } := by
      unfold nextRestateRoll
      rw [if_neg (by rw [hb]; exact Bool.false_ne_true)]
      show (match (rollNext n).1 with
        | none => { n with link := { n.link with
            restRoll := { items := (rollNext n).2, busy := (rollNext n).1.isSome } } }
        | some t => offerAgain { n with link := { n.link with
            restRoll := { items := (rollNext n).2, busy := (rollNext n).1.isSome } } } t true .restateRoll .restateRoll) = _
      cases (rollNext n).1 with
      | none => simp [restateEntry]
      | some t => exact restate_offered { n with link := { n.link with restRoll := _ } } t _ _ hj hd hl
    rw [he]
    refine ⟨(rollNext n).1, ⟨rfl, rfl, fun x hx => ?_⟩, rfl, rfl, fun _ => ⟨rfl, rfl⟩⟩
    obtain ⟨i, hi⟩ := firstItem_some _ _ x hx
    obtain ⟨c, -, rfl⟩ := Option.map_eq_some_iff.mp hi
    rfl

/-- The node that has made its restate lists. -/
def restatesMade (n : Node) : Node :=
  { n with link := { n.link with
      restBatch := { n.link.restBatch with items := if isRole n .shade then batchItems n else [] },
      restHold := { n.link.restHold with todo := n.hold.own.isSome },
      restRoll := { n.link.restRoll with items := if isRole n .rewind then n.roll.list.map (·.number) else [] } } }

/-- R36: a node that is joined with room in its queue starts the restates of its batches, of its hold and of its rolls. -/
theorem startRestates_starts (n : Node) (hj : isJoined n = true) (hd : downQueued n = false) (hl : n.link.queue.length ≤ 13) :
    ∃ b h r,
      startRestates n = { n with link := { n.link with
        restBatch := (startRestates n).link.restBatch, restHold := (startRestates n).link.restHold,
        restRoll := (startRestates n).link.restRoll,
        queue := n.link.queue ++ (restateEntry .restateBatch b ++ restateEntry .restateHold h ++ restateEntry .restateRoll r) } } ∧
      downQueued (startRestates n) = false ∧
      ((restatesMade n).link.restBatch.items = [] → b = none) ∧
      (n.link.restBatch.busy = false → b = (batchNext (restatesMade n)).1 ∧ (startRestates n).link.restBatch =
        { items := (batchNext (restatesMade n)).2, busy := (batchNext (restatesMade n)).1.isSome }) ∧
      (∀ o, n.hold.own = some o → n.link.restHold.busy = false → h = some (.holdSet o.first o.causes)) ∧
      (n.link.restRoll.busy = false → r = (rollNext (restatesMade n)).1 ∧ (startRestates n).link.restRoll =
        { items := (rollNext (restatesMade n)).2, busy := (rollNext (restatesMade n)).1.isSome }) := by
  have hstart : startRestates n = nextRestateRoll (nextRestateHold (nextRestateBatch (restatesMade n))) :=
    if_neg (by rw [hj]; exact Bool.false_ne_true)
  obtain ⟨b, hb, hbnone, hbh, hbr, hbnext⟩ := nextRestateBatch_starts (restatesMade n) hj hd (by
    show n.link.queue.length < 16
    omega)
  obtain ⟨hj1, hd1, hl1⟩ := hb.goes_on hj hd (k := 3) (by
    show n.link.queue.length + 3 ≤ 16
    omega)
  obtain ⟨h, hh, hhb, hhr, hhold⟩ := nextRestateHold_starts (nextRestateBatch (restatesMade n)) hj1 hd1 (by omega)
  obtain ⟨hj2, hd2, hl2⟩ := hh.goes_on hj1 hd1 (k := 2) (by omega)
  obtain ⟨r, hr, hrb, hrh, hrnext⟩ := nextRestateRoll_starts (nextRestateHold (nextRestateBatch (restatesMade n))) hj2 hd2 (by omega)
  obtain ⟨-, hd3, -⟩ := hr.goes_on hj2 hd2 (k := 1) (by omega)
  have hroll : (nextRestateHold (nextRestateBatch (restatesMade n))).roll = n.roll := by
    rw [hh.frame, hb.frame]
    rfl
  have hown : (nextRestateBatch (restatesMade n)).hold = n.hold := by
    rw [hb.frame]
    rfl
  have hrestRoll := hhr.trans hbr
  have hnext : rollNext (nextRestateHold (nextRestateBatch (restatesMade n))) = rollNext (restatesMade n) := by
    unfold rollNext
    rw [hroll, hrestRoll]
    rfl
  rw [hstart]
  refine ⟨b, h, r, ?_, hd3, hbnone, fun hbusy => ⟨(hbnext hbusy).1, ?_⟩, fun o ho hbusy => ?_, fun hbusy => ?_⟩
  · have hq := hr.queue
    rw [hh.queue, hb.queue] at hq
    have hf := hr.frame
    rw [hq] at hf
    generalize nextRestateRoll _ = x at hf ⊢
    have hh' := hh.frame
    generalize nextRestateHold _ = y at hh' hf
    have hb' := hb.frame
    generalize nextRestateBatch _ = z at hb' hh'
    rw [hf, hh', hb', ← List.append_assoc, ← List.append_assoc]
    rfl
  · rw [hrb, hhb]
    exact (hbnext hbusy).2
  · refine hhold o (by rw [hown]; exact ho) ?_
    rw [hbh]
    show ({ n.link.restHold with todo := n.hold.own.isSome } : RestateHold) = _
    rw [ho]
    exact congrArg (fun b => ({ todo := true, busy := b } : RestateHold)) hbusy
  · rw [← hnext]
    exact hrnext (by rw [hrestRoll]; exact hbusy)

end Sys2Proof.Proofs
end

/-! PROOFS. JOIN and RESUME in no conflict: the entry, the numbers and the restates (R36 to R39, R193). -/
section
namespace Sys2Proof.Proofs
open Sys2Proof.Machine Sys2Proof.Laws Sys2Proof.Claims

/-! ### Conflicts (R194) -/

theorem mem_stations (k : Nat) : k ∈ stations ↔ 1 ≤ k ∧ k ≤ 31 := by
  have h : stations = List.range' 1 31 := by decide
  rw [h, List.mem_range'_1]
  omega

theorem conflictWith_roles (n : Node) (j k : Nat) (a : Role × Nat) (ha : (peerAt n j).role = some a)
    (hq : ∀ q, (peerAt n k).role = some q → rolesConflict a q = false) : conflictWith n j k = false := by
  unfold conflictWith
  dsimp only
  cases hk : (peerAt n k).role with
  | none =>
    rw [ha]
    exact Bool.and_false _
  | some q =>
    rw [ha]
    dsimp only
    rw [hq q hk, Bool.and_false]

/-- The role `a` of station `j` is in conflict with no other entry. -/
def NoConflict (n : Node) (j : Nat) (a : Role × Nat) : Prop :=
  ∀ k, 1 ≤ k → k ≤ 31 → k ≠ j → ∀ q, (peerAt n k).role = some q → rolesConflict a q = false

theorem checkConflict_none (n : Node) (j : Nat) (a : Role × Nat) (ha : (peerAt n j).role = some a) (h : NoConflict n j a) :
    checkConflict n j = n := by
  have hnone : stations.filter (conflictWith n j) = [] := by
    refine List.filter_eq_nil_iff.2 fun k hk => ?_
    obtain ⟨h1, h31⟩ := (mem_stations k).1 hk
    by_cases hkj : k = j
    · simp [conflictWith, hkj]
    · rw [conflictWith_roles n j k a ha (h k h1 h31 hkj)]
      exact Bool.false_ne_true
  unfold checkConflict
  rw [hnone]
  rfl

/-! ### The entry of a station that joins (R193) -/

/-- The node that has replaced the sender's entry by the JOIN's and closed its open hold. -/
def joinHeard (n : Node) (o : Origin) (p : JoinPayload) : Node :=
  closeHoldOf (setPeer { n with link := heardLink n.link o } o.sender (joinedPeer (peerAt n o.sender) p)) o.sender

theorem joinHeard_frame (n : Node) (o : Origin) (p : JoinPayload) : joinHeard n o p = { n with
    link := heardLink n.link o, peers := (joinHeard n o p).peers,
    hold := { n.hold with list := (joinHeard n o p).hold.list } } := by
  unfold joinHeard closeHoldOf
  rw [setPeer_eq]

theorem wfStation_bounds {k : Nat} (h : wfStation k = true) : 1 ≤ k ∧ k ≤ 31 := by simpa [wfStation] using h

theorem peerAt_joinHeard (n : Node) (o : Origin) (p : JoinPayload) (hk : wfStation o.sender = true) (hl : n.peers.length = 31) :
    peerAt (joinHeard n o p) o.sender = joinedPeer (peerAt n o.sender) p ∧
      ∀ k, 1 ≤ k → k ≠ o.sender → peerAt (joinHeard n o p) k = peerAt n k := by
  obtain ⟨h1, h31⟩ := wfStation_bounds hk
  rw [← hl] at h31
  refine ⟨peerAt_setPeer_same { n with link := heardLink n.link o } o.sender _ h1 h31, fun k hk1 hne => ?_⟩
  exact peerAt_setPeer_other { n with link := heardLink n.link o } o.sender k _ h1 hk1 hne

theorem offerResume_stays (n : Node) : Stays (offerResume n) n :=
  (offerAgain_takes n _ _ _ _).stays

theorem startRestates_stands (n : Node) : Stands (startRestates n) n := by
  have hoffer : ∀ (m : Node) (t : Telegram) (b : OfferBy) (r : Reoffer), Stands (offerAgain m t true b r) m :=
    fun m t b r => (offerAgain_takes m t true b r).stays.stands
  have hb : ∀ m : Node, Stands (nextRestateBatch m) m := by
    intro m
    unfold nextRestateBatch
    split
    · exact .self m
    · dsimp only
      split
      · exact ⟨rfl, Or.inl rfl, rfl, rfl, rfl⟩
      · exact (hoffer _ _ _ _).trans ⟨rfl, Or.inl rfl, rfl, rfl, rfl⟩
  have hh : ∀ m : Node, Stands (nextRestateHold m) m := by
    intro m
    unfold nextRestateHold
    split
    · exact .self m
    · split
      · exact ⟨rfl, Or.inl rfl, rfl, rfl, rfl⟩
      · exact (hoffer _ _ _ _).trans ⟨rfl, Or.inl rfl, rfl, rfl, rfl⟩
  have hr : ∀ m : Node, Stands (nextRestateRoll m) m := by
    intro m
    unfold nextRestateRoll
    split
    · exact .self m
    · dsimp only
      split
      · exact ⟨rfl, Or.inl rfl, rfl, rfl, rfl⟩
      · exact (hoffer _ _ _ _).trans ⟨rfl, Or.inl rfl, rfl, rfl, rfl⟩
  unfold startRestates
  split
  · exact .self n
  · exact (hr _).trans ((hh _).trans ((hb _).trans ⟨rfl, Or.inl rfl, rfl, rfl, rfl⟩))

/-- R35, R36: what the end of another station's JOIN does at a node that applies frames. -/
theorem join_meaning (o : Origin) (s : State) (p : JoinPayload) (hh : HearsAnother o s) : meaning (.join o p) s.node =
    holdSettle (clearFrame (startRestates (offerResume (checkConflict (joinHeard s.node o p) o.sender)))) := by
  obtain ⟨ha, hs, hd, -, hne, -⟩ := hh
  have hpeers : (peerFrame s.node o.sender (.join p)).peers = s.node.peers := by
    unfold peerFrame
    rw [ite_self]
  have hnode : heardNode s.node o (.join p) = { s.node with link := heardLink s.node.link o } := by
    unfold heardNode
    rw [hpeers]
    rfl
  have happ : handOver (heardNode s.node o (.join p)) o false false (.join p) =
      startRestates (offerResume (checkConflict (joinHeard s.node o p) o.sender)) := by
    rw [hnode]
    exact if_neg hne
  have hstands : Stands (startRestates (offerResume (checkConflict (joinHeard s.node o p) o.sender))) (joinHeard s.node o p) :=
    (startRestates_stands _).trans ((offerResume_stays _).stands.trans (checkConflict_stands _ _))
  refine completeFrame_heard s.node o (.join p) ha hs hd hne _ happ ?_ ?_
  · rw [hstands.image, joinHeard_frame]
  · rw [hstands.voidRun, joinHeard_frame]
    rfl

theorem offerResume_joined (n : Node) (hj : isJoined n = true) (hd : downQueued n = false) (hl : n.link.queue.length < 16) :
    offerResume n = { n with link := { n.link with queue := n.link.queue ++
      [{ telegram := .resume (resumeContent n), restate := false, offerBy := .resume }] } } :=
  offerAgain_joined n _ _ _ _ hj hd hl

/-- The node of a JOIN in no conflict, before it starts its restates. -/
def joinResumed (n : Node) (o : Origin) (p : JoinPayload) : Node :=
  { joinHeard n o p with link := { heardLink n.link o with queue := n.link.queue ++
      [{ telegram := .resume (resumeContent (joinHeard n o p)), restate := false, offerBy := .resume }] } }

theorem join_unopposed (o : Origin) (s : State) (p : JoinPayload) (hh : HearsAnother o s) (hj : isJoined s.node = true)
    (hq : s.node.link.queue.length < 10) (hd : downQueued s.node = false)
    (hno : NoConflict s.node o.sender (p.role, p.slot)) :
    meaning (.join o p) s.node = holdSettle (clearFrame (startRestates (joinResumed s.node o p))) := by
  obtain ⟨hsame, hother⟩ := peerAt_joinHeard s.node o p hh.2.2.2.1 hh.2.2.2.2.2
  have hlink : (joinHeard s.node o p).link = heardLink s.node.link o := by rw [joinHeard_frame]
  have hcheck : checkConflict (joinHeard s.node o p) o.sender = joinHeard s.node o p := by
    refine checkConflict_none _ _ (p.role, p.slot) (by rw [hsame]; rfl) fun k h1 h31 hne q hqr => ?_
    rw [hother k h1 hne] at hqr
    exact hno k h1 h31 hne q hqr
  rw [join_meaning o s p hh, hcheck, offerResume_joined, hlink]
  · rfl
  · unfold isJoined
    rw [joinHeard_frame]
    exact hj
  · unfold downQueued
    rw [hlink]
    exact hd
  · rw [hlink]
    exact Nat.lt_of_lt_of_le hq (by decide)

/-- R36: such a node is joined, its queue has room for the restates, and no DOWN is queued. -/
theorem joinResumed_ready (o : Origin) (s : State) (p : JoinPayload) (hj : isJoined s.node = true)
    (hq : s.node.link.queue.length < 10) (hd : downQueued s.node = false) :
    isJoined (joinResumed s.node o p) = true ∧ downQueued (joinResumed s.node o p) = false ∧
      (joinResumed s.node o p).link.queue.length ≤ 10 := by
  have hst : (joinHeard s.node o p).st = s.node.st := by rw [joinHeard_frame]
  refine ⟨?_, ?_, ?_⟩
  · unfold isJoined joinResumed
    rw [hst]
    exact hj
  · refine downQueued_append { joinHeard s.node o p with link := heardLink s.node.link o } _ _ rfl hd fun e he => ?_
    rw [List.mem_singleton.1 he]
    rfl
  · show (s.node.link.queue ++ [_]).length ≤ 10
    rw [List.length_append]
    exact hq

/-- The settling of a joined node with room adds at most an offer of the Hold Unit to the queue. -/
theorem holdSettle_queue (n : Node) (hj : isJoined n = true) (hd : downQueued n = false) (hl : n.link.queue.length < 16) :
    ∃ more, (holdSettle n).link.queue = n.link.queue ++ more ∧ ∀ e ∈ more, e.offerBy = .hold := by
  have hoffer : ∀ m : Node, isJoined m = true → m.link = n.link →
      ∃ more, (holdOfferWanted m).link.queue = n.link.queue ++ more ∧ ∀ e ∈ more, e.offerBy = .hold := by
    intro m hm hlk
    have hdm : downQueued m = false := by
      unfold downQueued
      rw [hlk]
      exact hd
    unfold holdOfferWanted
    rw [holdAbsorb_link]
    unfold holdOffer
    split
    · exact ⟨[], by rw [hlk, List.append_nil], fun e he => by cases he⟩
    · split
      · exact ⟨[], by rw [hlk, List.append_nil], fun e he => by cases he⟩
      · rw [enqueue_joined m _ false .hold hm hdm (by rw [hlk]; exact hl)]
        refine ⟨_, by rw [← hlk], fun e he => ?_⟩
        rw [List.mem_singleton.1 he]
  unfold holdSettle
  split
  · exact ⟨[], by rw [List.append_nil], fun e he => by cases he⟩
  · split
    · exact ⟨[], by rw [List.append_nil], fun e he => by cases he⟩
    · dsimp only
      split
      · exact ⟨[], by rw [List.append_nil, holdAbsorb_link], fun e he => by cases he⟩
      · refine hoffer _ ?_ (holdAbsorb_link n)
        have hst := congrArg Node.st (sansHold_holdAbsorb n)
        unfold isJoined at hj ⊢
        exact (congrArg (fun st => decide (st = NodeState.joined)) hst).trans hj

/-- R36, R39: a JOIN in no conflict: the RESUME and the restates join the queue, and an offer of the Hold Unit behind them. -/
theorem join_restates (o : Origin) (s : State) (p : JoinPayload) (hh : HearsAnother o s) (hj : isJoined s.node = true)
    (hq : s.node.link.queue.length < 10) (hd : downQueued s.node = false)
    (hno : NoConflict s.node o.sender (p.role, p.slot)) :
    ∃ b h r more, let n := meaning (.join o p) s.node
      let m := joinResumed s.node o p
      n.link.queue = m.link.queue ++
        (restateEntry .restateBatch b ++ restateEntry .restateHold h ++ restateEntry .restateRoll r) ++ more ∧
      (∀ e ∈ more, e.offerBy = .hold) ∧ n.peers = m.peers ∧ n.st = .joined ∧
      ((restatesMade m).link.restBatch.items = [] → b = none) ∧
      (m.link.restBatch.busy = false → b = (batchNext (restatesMade m)).1 ∧ n.link.restBatch =
        { items := (batchNext (restatesMade m)).2, busy := (batchNext (restatesMade m)).1.isSome }) ∧
      (∀ o, m.hold.own = some o → m.link.restHold.busy = false → h = some (.holdSet o.first o.causes)) ∧
      (m.link.restRoll.busy = false → r = (rollNext (restatesMade m)).1 ∧ n.link.restRoll =
        { items := (rollNext (restatesMade m)).2, busy := (rollNext (restatesMade m)).1.isSome }) := by
  obtain ⟨hjm, hdm, hlm⟩ := joinResumed_ready o s p hj hq hd
  obtain ⟨b, h, r, hframe, hds, hnone, hbatch, hhold, hroll⟩ := startRestates_starts (joinResumed s.node o p) hjm hdm (by omega)
  have hmean := join_unopposed o s p hh hj hq hd hno
  generalize joinResumed s.node o p = m at *
  have hst : (startRestates m).st = m.st := by rw [hframe]
  have hpeers : (startRestates m).peers = m.peers := by rw [hframe]
  have hqueue := congrArg (fun n : Node => n.link.queue) hframe
  dsimp only at hqueue
  have hlen : (startRestates m).link.queue.length < 16 := by
    have h1 := restateEntry_length .restateBatch b
    have h2 := restateEntry_length .restateHold h
    have h3 := restateEntry_length .restateRoll r
    rw [hqueue]
    simp only [List.length_append]
    omega
  have hjs : isJoined (startRestates m) = true := by
    unfold isJoined at hjm ⊢
    rw [hst]
    exact hjm
  obtain ⟨more, hmore, hmoreBy⟩ := holdSettle_queue (clearFrame (startRestates m)) hjs hds hlen
  have hrest := holdSettle_linkRest (clearFrame (startRestates m))
  have hrestBatch : (holdSettle (clearFrame (startRestates m))).link.restBatch = (startRestates m).link.restBatch :=
    have h := congrArg Link.restBatch hrest
    h
  have hrestRoll : (holdSettle (clearFrame (startRestates m))).link.restRoll = (startRestates m).link.restRoll :=
    have h := congrArg Link.restRoll hrest
    h
  rw [hmean]
  refine ⟨b, h, r, more, ?_, hmoreBy, ?_, ?_, hnone, fun hb => ⟨(hbatch hb).1, hrestBatch.trans (hbatch hb).2⟩, hhold,
    fun hb => ⟨(hroll hb).1, hrestRoll.trans (hroll hb).2⟩⟩
  · rw [hmore, ← hqueue]
    rfl
  · rw [holdSettle_peers]
    exact hpeers
  · rw [holdSettle_st]
    exact hst.trans (by simpa [isJoined] using hjm)

theorem joinResumed_queue (n : Node) (o : Origin) (p : JoinPayload) : (joinResumed n o p).link.queue = n.link.queue ++
    [{ telegram := .resume (resumeContent (joinHeard n o p)), restate := false, offerBy := .resume }] := rfl

theorem joinReplacesTheEntry : Claims.JoinReplacesTheEntry := by
  intro o s p hh hj hq hd hno
  refine after_meaning ?_
  obtain ⟨b, h, r, more, hqueue, -, hpeers, hst, -⟩ := join_restates o s p hh hj hq hd hno
  obtain ⟨hsame, hother⟩ := peerAt_joinHeard s.node o p hh.2.2.2.1 hh.2.2.2.2.2
  generalize meaning (.join o p) s.node = n at hqueue hpeers hst ⊢
  have hat : ∀ k, peerAt n k = peerAt (joinHeard s.node o p) k := by
    intro k
    unfold peerAt
    rw [hpeers]
    rfl
  rw [hat, hsame]
  refine ⟨rfl, rfl, rfl, rfl, rfl, rfl, rfl, rfl, fun k hk hne => (hat k).trans (hother k hk hne), hst, ?_⟩
  refine ⟨{ telegram := .resume (resumeContent (joinHeard s.node o p)), restate := false, offerBy := .resume }, ?_, _, rfl⟩
  rw [hqueue, joinResumed_queue]
  simp

theorem joinsStartTheRestates : Claims.JoinsStartTheRestates := by
  intro o s p hh hj hq hd hno
  refine after_meaning ?_
  obtain ⟨b, h, r, more, hqueue, hmore, -, -, hnone, hbatch, hhold, hroll⟩ := join_restates o s p hh hj hq hd hno
  generalize meaning (.join o p) s.node = n at hqueue hbatch hroll ⊢
  have hframe := joinHeard_frame s.node o p
  have hrole : ∀ x, isRole (joinResumed s.node o p) x = isRole s.node x := by
    intro x
    unfold isRole joinResumed
    rw [hframe]
  have hbatchUnit : (joinResumed s.node o p).batch = s.node.batch := by
    unfold joinResumed
    rw [hframe]
  have hrollUnit : (joinResumed s.node o p).roll = s.node.roll := by
    unfold joinResumed
    rw [hframe]
  have hown : (joinResumed s.node o p).hold.own = s.node.hold.own := by
    unfold joinResumed
    rw [hframe]
  have hitems : (restatesMade (joinResumed s.node o p)).link.restBatch.items =
      if isRole s.node .shade then batchItems s.node else [] := by
    show (if isRole (joinResumed s.node o p) .shade then batchItems (joinResumed s.node o p) else []) = _
    rw [hrole]
    unfold batchItems
    rw [hbatchUnit]
  refine ⟨fun w hw hb => ?_, fun c rest hrw hlist hb => ?_, fun w e hsh hw hlast hfind hb hcode hstate hin => ?_, fun hno' => ?_⟩
  · rw [hhold w (hown.trans hw) hb] at hqueue
    refine ⟨{ telegram := .holdSet w.first w.causes, restate := true, offerBy := .restateHold }, ?_, rfl, rfl, rfl⟩
    rw [hqueue]
    simp [restateEntry]
  · obtain ⟨hr, hrest⟩ := hroll hb
    have hnext : rollNext (restatesMade (joinResumed s.node o p)) = (some (.roll c), rest.map (·.number)) := by
      have hmade : (restatesMade (joinResumed s.node o p)).link.restRoll.items = c.number :: rest.map (·.number) := by
        show (if isRole (joinResumed s.node o p) .rewind then (joinResumed s.node o p).roll.list.map (·.number) else []) = _
        rw [hrole, if_pos hrw, hrollUnit, hlist]
        rfl
      unfold rollNext
      rw [hmade, show (restatesMade (joinResumed s.node o p)).roll = s.node.roll from hrollUnit, hlist]
      simp [firstItem]
    rw [hnext] at hr hrest
    rw [hr] at hqueue
    refine ⟨hrest, { telegram := .roll c, restate := true, offerBy := .restateRoll }, ?_, rfl, rfl, rfl⟩
    rw [hqueue]
    simp [restateEntry]
  · obtain ⟨hb1, hrest⟩ := hbatch hb
    have hnext : batchNext (restatesMade (joinResumed s.node o p)) =
        (some (.batchOpened { code := w.code, first := e.first, reason := w.reason }),
          if e.state = .fixed then [(e.code, true)] else []) := by
      have hmade : (restatesMade (joinResumed s.node o p)).link.restBatch.items =
          (e.code, false) :: if e.state = .fixed then [(e.code, true)] else [] := by
        rw [hitems, if_pos hsh]
        unfold batchItems
        rw [hw, hlast]
        dsimp only
        rw [if_neg (by simp [hin, hstate, hcode])]
        split <;> rfl
      have hfirst : batchRestate (restatesMade (joinResumed s.node o p)) e.code false =
          some (.batchOpened { code := w.code, first := e.first, reason := w.reason }) := by
        unfold batchRestate
        rw [show (restatesMade (joinResumed s.node o p)).batch = s.node.batch from hbatchUnit, hw, hfind, hcode]
        simp
      unfold batchNext
      rw [hmade]
      unfold firstItem
      dsimp only
      rw [hfirst]
    rw [hnext] at hb1 hrest
    rw [hb1] at hqueue
    refine ⟨hrest, { telegram := .batchOpened { code := w.code, first := e.first, reason := w.reason }, restate := true,
                     offerBy := .restateBatch }, ?_, rfl, rfl, rfl⟩
    rw [hqueue]
    simp [restateEntry]
  · have hempty : (restatesMade (joinResumed s.node o p)).link.restBatch.items = [] := by
      rw [hitems]
      split
      · next hsh =>
        unfold batchItems
        split
        · next w e hw hlast =>
          rcases hno' with hx | hx | hx | hx
          · rw [hsh] at hx
            cases hx
          · rw [hw] at hx
            cases hx
          · exact if_pos (Or.inl hx)
          · rcases hx e hlast with hc | hc
            · exact if_pos (Or.inr (Or.inl hc))
            · exact if_pos (Or.inr (Or.inr (hc w hw)))
        · rfl
      · rfl
    rw [hnone hempty] at hqueue
    intro e he hby
    rw [hqueue, joinResumed_queue] at he
    have hkind : ∀ (x : OfferBy) (t : Option Telegram), e ∈ restateEntry x t → e.offerBy = x := by
      intro x t ht
      cases t with
      | none => cases ht
      | some t => rw [List.mem_singleton.1 ht]
    simp only [List.mem_append, List.mem_singleton] at he
    rcases he with (((he | he) | ((he | he) | he)) | he)
    · exact he
    · rw [he] at hby
      cases hby
    · cases he
    · rw [hkind _ _ he] at hby
      cases hby
    · rw [hkind _ _ he] at hby
      cases hby
    · rw [hmore e he] at hby
      cases hby

end Sys2Proof.Proofs
end

/-! PROOFS. RESUME in no conflict, and the own JOIN that lets the node in (R35, R38, R191 to R193). -/
section
namespace Sys2Proof.Proofs
open Sys2Proof.Machine Sys2Proof.Laws Sys2Proof.Claims

/-! ### RESUME (R38, R193) -/

/-- The node that has recorded the role of a RESUME's sender. -/
def roleHeard (n : Node) (o : Origin) (p : ResumePayload) : Node :=
  setPeer (heardNode n o (.resume p)) o.sender
    { peerAt (heardNode n o (.resume p)) o.sender with role := some (p.role, p.slot), learnt := true }

theorem roleHeard_frame (n : Node) (o : Origin) (p : ResumePayload) :
    roleHeard n o p = { n with link := heardLink n.link o, peers := (roleHeard n o p).peers } := by
  unfold roleHeard
  rw [setPeer_eq]
  rfl

theorem peerAt_roleHeard (o : Origin) (s : State) (p : ResumePayload) (hh : HearsAnother o s) :
    (peerAt (roleHeard s.node o p) o.sender).role = some (p.role, p.slot) ∧
    (peerAt (roleHeard s.node o p) o.sender).learnt = true ∧
    (∀ k, 1 ≤ k → k ≠ o.sender → peerAt (roleHeard s.node o p) k = peerAt s.node k) ∧
    (roleHeard s.node o p).peers.length = 31 := by
  obtain ⟨-, -, -, hk, -, hlen⟩ := hh
  obtain ⟨h1, h31⟩ := wfStation_bounds hk
  have hheard : (heardNode s.node o (.resume p)).peers.length = 31 := (peerFrame_length s.node o.sender (.resume p)).trans hlen
  have hsame := peerAt_setPeer_same (heardNode s.node o (.resume p)) o.sender
    { peerAt (heardNode s.node o (.resume p)) o.sender with role := some (p.role, p.slot), learnt := true } h1
    (by rw [hheard]; exact h31)
  unfold roleHeard
  refine ⟨by rw [hsame], by rw [hsame], fun k hk1 hne => ?_, by rw [setPeer_length, hheard]⟩
  rw [peerAt_setPeer_other _ o.sender k _ h1 hk1 hne]
  exact peerFrame_other s.node o.sender k (.resume p) h1 hk1 hne

/-- R38, R193: what the end of another station's RESUME does at a node that applies frames. -/
theorem resume_meaning (o : Origin) (s : State) (p : ResumePayload) (hh : HearsAnother o s) :
    meaning (.resume o p) s.node = holdSettle (clearFrame (if s.node.link.resume.isSome then
      resumeNumbers (checkConflict (roleHeard s.node o p) o.sender) p else checkConflict (roleHeard s.node o p) o.sender)) := by
  obtain ⟨ha, hs, hd, -, hne, -⟩ := hh
  have happ : handOver (heardNode s.node o (.resume p)) o false false (.resume p) = (if s.node.link.resume.isSome then
      resumeNumbers (checkConflict (roleHeard s.node o p) o.sender) p else checkConflict (roleHeard s.node o p) o.sender) := by
    have hrecord : recordRole (heardNode s.node o (.resume p)) o.sender p.role p.slot =
        checkConflict (roleHeard s.node o p) o.sender := if_neg hne
    show applyResume (heardNode s.node o (.resume p)) o.sender p = _
    unfold applyResume
    rw [hrecord]
    rfl
  have hstands : Stands (if s.node.link.resume.isSome then
      resumeNumbers (checkConflict (roleHeard s.node o p) o.sender) p else checkConflict (roleHeard s.node o p) o.sender)
      (roleHeard s.node o p) := by
    split
    · exact (resumeNumbers_stands _ p).trans (checkConflict_stands _ _)
    · exact checkConflict_stands _ _
  refine completeFrame_heard s.node o (.resume p) ha hs hd hne _ happ ?_ ?_
  · rw [hstands.image, roleHeard_frame]
  · rw [hstands.voidRun, roleHeard_frame]
    rfl

theorem resumeTeachesRoleAndNumbers : Claims.ResumeTeachesRoleAndNumbers := by
  intro o s p hh hj hno
  refine after_meaning ?_
  obtain ⟨hrole, hlearnt, hother, -⟩ := peerAt_roleHeard o s p hh
  have hframe := roleHeard_frame s.node o p
  have hcheck : checkConflict (roleHeard s.node o p) o.sender = roleHeard s.node o p := by
    refine checkConflict_none _ _ (p.role, p.slot) hrole fun k h1 h31 hne q hq => ?_
    rw [hother k h1 hne] at hq
    exact hno k h1 h31 hne q hq
  have hst : (roleHeard s.node o p).st = .joined := by
    rw [hframe]
    simpa [isJoined] using hj
  have hpeer : ∀ n : Node, n.peers = (roleHeard s.node o p).peers →
      (peerAt (holdSettle (clearFrame n)) o.sender).role = some (p.role, p.slot) ∧
      (peerAt (holdSettle (clearFrame n)) o.sender).learnt = true := by
    intro n hn
    have hat : peerAt (holdSettle (clearFrame n)) o.sender = peerAt (roleHeard s.node o p) o.sender := by
      unfold peerAt
      rw [holdSettle_peers]
      exact congrArg (fun l : List Peer => if 1 ≤ o.sender then l.getD (o.sender - 1) {} else {}) hn
    rw [hat]
    exact ⟨hrole, hlearnt⟩
  rw [resume_meaning o s p hh, hcheck]
  cases hres : s.node.link.resume with
  | none =>
    rw [if_neg (by decide)]
    obtain ⟨h1, h2⟩ := hpeer (roleHeard s.node o p) rfl
    obtain ⟨-, -, -, -, -, -, n1, n2, n3, n4⟩ := linkRest_fields (holdSettle_linkRest (clearFrame (roleHeard s.node o p)))
    have hlink : (roleHeard s.node o p).link = heardLink s.node.link o := by rw [hframe]
    have hclear : (clearFrame (roleHeard s.node o p)).link = { heardLink s.node.link o with faulty := false, drove := false } := by
      rw [← hlink]
      rfl
    rw [hclear] at n1 n2 n3 n4
    refine ⟨h1, h2, (holdSettle_st _).trans hst, fun _ => ⟨n1, n2, n3, n4, ?_⟩, fun h => by cases h⟩
    rw [holdSettle_job]
    show (roleHeard s.node o p).job = _
    rw [hframe]
  | some k =>
    rw [if_pos (by rfl), resumeNumbers_eq]
    obtain ⟨h1, h2⟩ := hpeer { roleHeard s.node o p with
      link := resumedLink (roleHeard s.node o p).link p, job := resumedJob (roleHeard s.node o p) p } rfl
    obtain ⟨-, -, -, -, -, -, n1, n2, n3, n4⟩ := linkRest_fields (holdSettle_linkRest (clearFrame { roleHeard s.node o p with
      link := resumedLink (roleHeard s.node o p).link p, job := resumedJob (roleHeard s.node o p) p }))
    have hlink : (roleHeard s.node o p).link = heardLink s.node.link o := by rw [hframe]
    have hjob : (roleHeard s.node o p).job = s.node.job := by rw [hframe]
    have hclear : (clearFrame { roleHeard s.node o p with
        link := resumedLink (roleHeard s.node o p).link p, job := resumedJob (roleHeard s.node o p) p }).link =
        { resumedLink (heardLink s.node.link o) p with faulty := false, drove := false } := by
      rw [← hlink]
      rfl
    rw [hclear] at n1 n2 n3 n4
    refine ⟨h1, h2, (holdSettle_st _).trans hst, (fun h => by cases h), fun _ => ⟨n1, n2, n3, fun j hpj => ⟨n4.trans ?_, ?_⟩⟩⟩
    · show (match p.job with
        | some j => raiseNumber jobRange (heardLink s.node.link o).newestJob j.number
        | none => (heardLink s.node.link o).newestJob) = _
      rw [hpj]
      rfl
    · rw [holdSettle_job]
      show (resumedJob (roleHeard s.node o p) p).given = _
      unfold resumedJob newerThanGiven
      rw [hpj, hjob]
      dsimp only
      cases hg : s.node.job.given with
      | none => rfl
      | some g =>
        dsimp only
        split
        · rfl
        · exact hg

/-! ### The own JOIN (R35, R191, R192) -/

/-- The node that its own JOIN lets in, before it writes its entry. -/
def letIn (n : Node) : Node :=
  { n with
    st := if n.benchMark then .benched else .joined,
    port := (setState n (if n.benchMark then .benched else .joined)).port,
    link := { n.link with
      w := (cfg n).station, slot := none, heardEnd := true, silentMs := 0,
      queue := n.link.queue.drop 1, attempts := 0, sending := false, stopped := false, ownRun := min 16 (n.link.ownRun + 1),
      linkFault := n.link.linkFault && decide (min 16 (n.link.ownRun + 1) < 16), refusedOffers := [],
      resume := some 50, sendElapsed := some 0, completed := n.link.completed + 1 } }

theorem letIn_applies (n : Node) : appliesFrames (letIn n) = true := by
  unfold appliesFrames letIn
  cases n.benchMark <;> rfl

theorem joinCompletes_letIn (n : Node) :
    countCompleted (joinCompletes (ownCompletes (heardBy n (cfg n).station))) = letIn n := by
  have hjoin : joinCompletes (ownCompletes (heardBy n (cfg n).station)) =
      { letIn n with link := { (letIn n).link with completed := n.link.completed } } := by
    unfold joinCompletes
    rw [setState_eq]
    have hport : ∀ (l : Link) (x : NodeState), (setState { n with link := l } x).port = (setState n x).port := by
      intro l x
      unfold setState
      dsimp only
      split <;> rfl
    show ({ n with st := _, port := (setState { n with link := _ } _).port, link := _ } : Node) = _
    rw [hport]
    rfl
  rw [hjoin]
  exact if_pos (letIn_applies n)

/-- The node behind its own JOIN, its entry written. -/
def selfWritten (n : Node) (p : JoinPayload) : Node :=
  writeOwnEntry (closeHoldOf (letIn n) (cfg n).station) p.cause

theorem selfWritten_frame (n : Node) (p : JoinPayload) : selfWritten n p = { letIn n with
    peers := (selfWritten n p).peers, hold := (selfWritten n p).hold } := by
  unfold selfWritten writeOwnEntry
  rw [setPeer_eq]
  rfl

theorem peerAt_selfWritten (n : Node) (p : JoinPayload) (hk : wfStation (cfg n).station = true) (hl : n.peers.length = 31) :
    peerAt (selfWritten n p) (cfg n).station =
      { state := if n.benchMark then .benched else .present, role := some ((cfg n).role, (cfg n).colourSlot), learnt := true,
        cause := some p.cause, signature := some n.signature } ∧
    ∀ k, 1 ≤ k → k ≠ (cfg n).station → peerAt (selfWritten n p) k = peerAt n k := by
  obtain ⟨h1, h31⟩ := wfStation_bounds hk
  have hsame := peerAt_setPeer_same (closeHoldOf (letIn n) (cfg n).station) (cfg n).station
    { state := if (letIn n).st = .benched then .benched else .present, role := some ((cfg n).role, (cfg n).colourSlot),
      learnt := true, cause := some p.cause, signature := some n.signature } h1 (by rw [← hl] at h31; exact h31)
  refine ⟨hsame.trans ?_, fun k hk1 hne => ?_⟩
  · unfold letIn
    dsimp only
    cases n.benchMark <;> rfl
  · exact peerAt_setPeer_other (closeHoldOf (letIn n) (cfg n).station) (cfg n).station k _ h1 hk1 hne

/-- R35: the end of the own JOIN of a JOINING node, its role in no conflict and no offer waiting. -/
theorem ownJoin_meaning (s : State) (p : JoinPayload) (hst : s.node.st = .joining) (hs : s.node.link.sending = true)
    (hrefused : s.node.link.refusedOffers = []) (hk : wfStation (cfg s.node).station = true) (hl : s.node.peers.length = 31)
    (hq : s.node.link.queue.head? = some { telegram := .join p, restate := false, offerBy := .join })
    (hno : NoConflict s.node (cfg s.node).station ((cfg s.node).role, (cfg s.node).colourSlot)) :
    meaning (.join (ownOrigin s) p) s.node = holdSettle (clearFrame (selfWritten s.node p)) := by
  obtain ⟨rest, hrest⟩ : ∃ rest, s.node.link.queue = { telegram := .join p, restate := false, offerBy := .join } :: rest := by
    cases hl : s.node.link.queue with
    | nil => rw [hl] at hq; cases hq
    | cons x xs =>
      rw [hl] at hq
      cases hq
      exact ⟨xs, rfl⟩
  have hown : isOwnFrame s.node (ownOrigin s) (.join p) = true := by
    unfold isOwnFrame
    rw [hs, hq]
    simp [ownOrigin]
  obtain ⟨hsame, hother⟩ := peerAt_selfWritten s.node p hk hl
  have hcheck : checkConflict (selfWritten s.node p) (cfg s.node).station = selfWritten s.node p := by
    refine checkConflict_none _ _ ((cfg s.node).role, (cfg s.node).colourSlot) (by rw [hsame]) fun k h1 h31 hne q hqr => ?_
    rw [hother k h1 hne] at hqr
    exact hno k h1 h31 hne q hqr
  have happly : applyFrame (letIn s.node) (ownOrigin s) true false (.join p) = selfWritten s.node p := by
    have hpeer : peerFrame (letIn s.node) (ownOrigin s).sender (.join p) = letIn s.node := by
      unfold peerFrame
      rw [ite_self]
    have hjoin : ∀ m : Node, applyJoin m (cfg m).station p =
        checkConflict (writeOwnEntry (closeHoldOf m (cfg m).station) p.cause) (cfg m).station := fun m => if_pos rfl
    unfold applyFrame
    rw [hpeer]
    exact (hjoin (letIn s.node)).trans hcheck
  have hcomplete : completeOwn (heardBy s.node (cfg s.node).station) (ownOrigin s) (.join p)
      { telegram := .join p, restate := false, offerBy := .join } = selfWritten s.node p := by
    unfold completeOwn
    dsimp only
    rw [show (heardBy s.node (cfg s.node).station).link.refusedOffers = [] from hrefused, if_pos (show isJoin (.join p) = true from rfl),
      joinCompletes_letIn, if_pos (letIn_applies s.node), happly]
    rfl
  show completeFrame (ownOrigin s) (.join p) s.node = _
  unfold completeFrame
  rw [if_pos (by simp [tracksW, hst]), hown, hrest]
  dsimp only
  rw [if_neg (by rw [hst]; decide)]
  exact congrArg (fun n => holdSettle (clearFrame n)) hcomplete

theorem ownJoinsLetTheNodeIn : Claims.OwnJoinsLetTheNodeIn := by
  intro s hst hs hrefused hk hl p hq hno
  refine after_meaning ?_
  obtain ⟨hsame, hother⟩ := peerAt_selfWritten s.node p hk hl
  rw [ownJoin_meaning s p hst hs hrefused hk hl hq hno]
  have hframe := selfWritten_frame s.node p
  have hat : ∀ k, peerAt (holdSettle (clearFrame (selfWritten s.node p))) k = peerAt (selfWritten s.node p) k := by
    intro k
    unfold peerAt
    rw [holdSettle_peers]
    rfl
  have hrest := holdSettle_linkRest (clearFrame (selfWritten s.node p))
  obtain ⟨hw, hc, -, hsend, hatt, hres, -⟩ := linkRest_fields hrest
  have htimer : (holdSettle (clearFrame (selfWritten s.node p))).link.sendElapsed = (clearFrame (selfWritten s.node p)).link.sendElapsed :=
    have h := congrArg Link.sendElapsed hrest
    h
  have hlink : (clearFrame (selfWritten s.node p)).link = { (letIn s.node).link with faulty := false, drove := false } := by
    unfold clearFrame
    rw [hframe]
  rw [hlink] at hw hc hsend hatt hres htimer
  have hport : (selfWritten s.node p).port.attention &&& attNode = attNode := by
    rw [hframe]
    refine setState_attention s.node _ ?_
    rw [hst]
    split <;> decide
  refine ⟨?_, ?_, hres, htimer, hsend, hatt, hw, hc, (settled_attends _).cause attNode hport, ?_, fun k hk1 hne => ?_⟩
  · rw [holdSettle_st]
    show (selfWritten s.node p).st = _
    rw [hframe]
    rfl
  · rw [holdSettle_benchMark]
    show (selfWritten s.node p).benchMark = _
    rw [hframe]
    rfl
  · rw [hat, hsame]
  · rw [hat, hother k hk1 hne]

end Sys2Proof.Proofs
end

/-! PROOFS. Roles in conflict: the higher station is benched (R22, R36, R191, R194). -/
section
namespace Sys2Proof.Proofs
open Sys2Proof.Machine Sys2Proof.Laws Sys2Proof.Claims

/-! ### The station that a conflict benches (R194) -/

theorem stations_single : ∀ k, k < 32 → 1 ≤ k → stations.filter (fun x => decide (x = k)) = [k] := by decide

/-- Of a recorded role's conflict with one learnt station, the higher of the two is benched. -/
theorem checkConflict_one (n : Node) (j k : Nat) (a q : Role × Nat) (ha : (peerAt n j).role = some a) (h1 : 1 ≤ k) (h31 : k ≤ 31)
    (hne : k ≠ j) (hq : (peerAt n k).role = some q) (hlearnt : (peerAt n k).learnt = true) (hst : (peerAt n k).state ≠ .benched)
    (hc : rolesConflict a q = true)
    (hno : ∀ i, 1 ≤ i → i ≤ 31 → i ≠ j → i ≠ k → ∀ r, (peerAt n i).role = some r → rolesConflict a r = false) :
    checkConflict n j = benchStation n (max j k) := by
  have hk : conflictWith n j k = true := by
    unfold conflictWith
    dsimp only
    rw [ha, hq, hlearnt]
    simp [hne, hst, hc]
  have hfilter : stations.filter (conflictWith n j) = [k] := by
    rw [← stations_single k (by omega) h1]
    refine List.filter_congr fun x hx => ?_
    obtain ⟨hx1, hx31⟩ := (mem_stations x).1 hx
    by_cases hxk : x = k
    · rw [hxk, hk]
      simp
    · rw [decide_eq_false hxk]
      by_cases hxj : x = j
      · simp [conflictWith, hxj]
      · exact conflictWith_roles n j x a ha (hno x hx1 hx31 hxj hxk)
  unfold checkConflict
  rw [hfilter]
  rfl

/-- R153: no hold of a station stays open when its hold is closed. -/
theorem closeHoldOf_closed (n : Node) (k : Nat) : ∀ h ∈ (closeHoldOf n k).hold.list, h.station = k → h.last.isSome = true := by
  intro h hh hk
  obtain ⟨x, -, rfl⟩ := List.mem_map.1 hh
  by_cases hx : x.station = k ∧ x.last.isNone = true
  · rw [if_pos hx]
    rfl
  · rw [if_neg hx] at hk ⊢
    cases hl : x.last with
    | none => exact absurd ⟨hk, by rw [hl]; rfl⟩ hx
    | some l => rfl

theorem benchQueue_kinds (q : List QEntry) : ∀ e ∈ benchQueue false q, benchedKind e.telegram = true := by
  cases q with
  | nil => exact fun e he => by cases he
  | cons x xs =>
    intro e he
    unfold benchQueue at he
    dsimp only at he
    split at he
    · next hx =>
      rcases List.mem_cons.1 he with rfl | h
      · exact hx
      · exact (List.mem_filter.1 h).2
    · exact (List.mem_filter.1 he).2

/-- What the benching of station `b` makes of a joined node. -/
structure BenchedAt (b : Nat) (m n : Node) : Prop where
  state : (peerAt m b).state = .benched
  role : (peerAt m b).role = (peerAt n b).role
  others : ∀ j, 1 ≤ j → j ≠ b → peerAt m j = peerAt n j
  closed : ∀ h ∈ m.hold.list, h.station = b → h.last.isSome = true
  image : m.image = n.image
  other : b ≠ (cfg n).station → m.st = n.st ∧ m.benchMark = n.benchMark ∧ m.link = n.link
  self : b = (cfg n).station → m.st = .benched ∧ m.benchMark = true ∧ m.port.attention &&& attNode = attNode ∧
    (∀ e ∈ m.link.queue, benchedKind e.telegram = true) ∧ m.link.queue.length ≤ n.link.queue.length

theorem endRequest_attention (n : Node) (x : SlotState) (c : BitVec 4) (h : n.port.attention &&& c = c) :
    (endRequest n x).port.attention &&& c = c := by
  unfold endRequest
  split
  · exact Attends.cause (p := n.port) ⟨attRequest, rfl⟩ c h
  · exact h

theorem benchSelf_attention (n : Node) (c : BitVec 4) (h : (benchLeft n).port.attention &&& c = c) :
    (benchSelf n).port.attention &&& c = c := by
  unfold benchSelf
  dsimp only
  split
  · exact endRequest_attention _ _ c h
  · exact h

/-- The own entry and the own hold of the node that benches itself; no other entry changes. -/
theorem benchLeft_facts (n : Node) (hk : wfStation (cfg n).station = true) (hl : n.peers.length = 31) :
    peerAt (benchLeft n) (cfg n).station = { peerAt n (cfg n).station with state := .benched } ∧
    (∀ j, 1 ≤ j → j ≠ (cfg n).station → peerAt (benchLeft n) j = peerAt n j) ∧
    (benchLeft n).hold = (closeHoldOf (leaveTo { n with benchMark := true } .benched) (cfg n).station).hold ∧
    (benchLeft n).st = .benched ∧ (benchLeft n).benchMark = true ∧ (benchLeft n).image = n.image ∧
    (benchLeft n).port = (leaveTo { n with benchMark := true } .benched).port ∧
    (benchLeft n).link = (leaveTo { n with benchMark := true } .benched).link := by
  obtain ⟨h1, h31⟩ := wfStation_bounds hk
  obtain ⟨hst, himage, hpeers, hmark, -⟩ := leaveTo_fields { n with benchMark := true } .benched
  have hat : ∀ k, peerAt (closeHoldOf (leaveTo { n with benchMark := true } .benched) (cfg n).station) k = peerAt n k := fun k =>
    congrArg (fun l : List Peer => if 1 ≤ k then l.getD (k - 1) {} else {}) hpeers
  have hlen : (closeHoldOf (leaveTo { n with benchMark := true } .benched) (cfg n).station).peers.length = 31 :=
    (congrArg List.length hpeers).trans hl
  have hframe := setPeer_eq (closeHoldOf (leaveTo { n with benchMark := true } .benched) (cfg n).station) (cfg n).station
    { peerAt (closeHoldOf (leaveTo { n with benchMark := true } .benched) (cfg n).station) (cfg n).station with state := .benched }
  refine ⟨?_, fun j hj1 hne => ?_, ?_, ?_, ?_, ?_, ?_, ?_⟩
  · refine (peerAt_setPeer_same _ _ _ h1 (by rw [hlen]; exact h31)).trans ?_
    rw [hat]
  · exact (peerAt_setPeer_other _ _ j _ h1 hj1 hne).trans (hat j)
  all_goals
    unfold benchLeft
    rw [hframe]
  · exact hst
  · exact hmark
  · exact himage
  · rfl
  · rfl

theorem benchQueue_length_le (b : Bool) (q : List QEntry) : (benchQueue b q).length ≤ q.length := by
  cases q with
  | nil => exact Nat.le_refl _
  | cons x xs =>
    have hf := List.length_filter_le (fun e : QEntry => benchedKind e.telegram) xs
    unfold benchQueue
    dsimp only
    split
    · exact Nat.succ_le_succ hf
    · exact Nat.le_succ_of_le hf

theorem benchSelf_benched (n : Node) (hj : isJoined n = true) (hs : n.link.sending = false) (hk : wfStation (cfg n).station = true)
    (hl : n.peers.length = 31) : BenchedAt (cfg n).station (benchSelf n) n := by
  obtain ⟨hsame, hother, hhold, hst, hmark, himage, hport, hlink⟩ := benchLeft_facts n hk hl
  have hleft := leaveTo_link { n with benchMark := true } .benched
  have hatt := leaveTo_attention { n with benchMark := true } .benched (by
    show n.st ≠ .benched
    intro h
    unfold isJoined at hj
    rw [h] at hj
    cases hj)
  have hsend : (benchLeft n).link.sending = false := by
    rw [hlink, hleft]
    exact hs
  have hqueue : (benchLeft n).link.queue = n.link.queue := by
    rw [hlink, hleft]
  have hattention := benchSelf_attention n attNode (by rw [hport]; exact hatt)
  have heq := benchSelf_eq n
  have hkept : (benchSelf n).link.queue = benchQueue false n.link.queue := by
    rw [heq]
    dsimp only
    rw [hsend, hqueue]
  have hat : ∀ k, peerAt (benchSelf n) k = peerAt (benchLeft n) k := by
    intro k
    rw [heq]
    rfl
  refine ⟨by rw [hat, hsame], by rw [hat, hsame], fun j h1 hne => (hat j).trans (hother j h1 hne), ?_, ?_,
    fun h => absurd rfl h, fun _ => ⟨?_, ?_, hattention, ?_, ?_⟩⟩
  · rw [heq]
    show ∀ h ∈ (benchLeft n).hold.list, h.station = _ → _
    rw [hhold]
    exact closeHoldOf_closed _ _
  · rw [heq]
    exact himage
  · rw [heq]
    exact hst
  · rw [heq]
    exact hmark
  · rw [hkept]
    exact benchQueue_kinds _
  · rw [hkept]
    exact benchQueue_length_le _ _

theorem benchStation_benched (n : Node) (b : Nat) (hj : isJoined n = true) (hs : n.link.sending = false)
    (hb : wfStation b = true) (hl : n.peers.length = 31) : BenchedAt b (benchStation n b) n := by
  obtain ⟨h1, h31⟩ := wfStation_bounds hb
  by_cases hown : b = (cfg n).station
  · have he : benchStation n b = benchSelf n := by
      unfold benchStation
      rw [if_pos hown, if_pos (by simpa [isJoined] using hj)]
    rw [he, hown]
    exact benchSelf_benched n hj hs (by rw [← hown]; exact hb) hl
  · have he : benchStation n b = closeHoldOf (setPeer n b { peerAt n b with state := .benched }) b := if_neg hown
    have hsame := peerAt_setPeer_same n b { peerAt n b with state := .benched } h1 (by rw [hl]; exact h31)
    have hframe := setPeer_eq n b { peerAt n b with state := .benched }
    have hstate := congrArg Peer.state hsame
    have hrole := congrArg Peer.role hsame
    have himage := congrArg Node.image hframe
    have hst := congrArg Node.st hframe
    have hmark := congrArg Node.benchMark hframe
    have hlink := congrArg Node.link hframe
    rw [he]
    exact ⟨hstate, hrole, fun j hj1 hne => peerAt_setPeer_other n b j _ h1 hj1 hne, closeHoldOf_closed _ _, himage,
      fun _ => ⟨hst, hmark, hlink⟩, fun h => absurd h hown⟩

/-! ### What follows the benching -/

/-- What the steps behind the application keep: the peers, the node's state, the hold list, the causes of ATTN and the queue, which
grows by kinds that a benched node sends. -/
structure Follows (a b : Node) : Prop where
  peers : a.peers = b.peers
  st : a.st = b.st
  mark : a.benchMark = b.benchMark
  holds : a.hold.list = b.hold.list
  port : Attends b.port a.port
  queue : ∃ more, a.link.queue = b.link.queue ++ more ∧ (b.st = .benched → ∀ e ∈ more, benchedKind e.telegram = true)

theorem Follows.self (n : Node) : Follows n n :=
  ⟨rfl, rfl, rfl, rfl, .self _, [], by rw [List.append_nil], fun _ e he => by cases he⟩

theorem Follows.trans {a b c : Node} (h1 : Follows a b) (h2 : Follows b c) : Follows a c := by
  obtain ⟨x, hx, hxk⟩ := h1.queue
  obtain ⟨y, hy, hyk⟩ := h2.queue
  refine ⟨h1.peers.trans h2.peers, h1.st.trans h2.st, h1.mark.trans h2.mark, h1.holds.trans h2.holds, h2.port.trans h1.port,
    y ++ x, by rw [hx, hy, List.append_assoc], fun hb e he => ?_⟩
  rcases List.mem_append.1 he with h | h
  · exact hyk hb e h
  · exact hxk (h2.st.trans hb) e h

theorem settled_follows (n : Node) (hst : n.st = .joined ∨ n.st = .benched) (hl : n.link.queue.length < 16) :
    Follows (holdSettle (clearFrame n)) n := by
  have hrecords := (holdSettle_records (clearFrame n)).1
  refine ⟨holdSettle_peers _, holdSettle_st _, holdSettle_benchMark _, hrecords, settled_attends n, ?_⟩
  rcases hst with h | h
  · obtain ⟨-, -, -, more, -, hq⟩ := (holdSettle_offers (clearFrame n)).room (by
      show n.link.queue.length + 1 ≤ 16
      omega)
    refine ⟨more, hq, fun hb => ?_⟩
    rw [h] at hb
    cases hb
  · obtain ⟨x, hx⟩ := holdSettle_outside (clearFrame n) (by
      show n.st ≠ .joined
      rw [h]
      decide)
    rw [hx]
    exact ⟨[], by rw [List.append_nil]; rfl, fun _ e he => by cases he⟩

/-- R36: a RESUME is offered at a joined node with no DOWN queued, and at a benched one. -/
theorem offerResume_follows (n : Node) (hl : n.link.queue.length < 16)
    (hst : isJoined n = true ∧ downQueued n = false ∨ n.st = .benched) :
    offerResume n = { n with link := { n.link with queue := n.link.queue ++
      [{ telegram := .resume (resumeContent n), restate := false, offerBy := .resume }] } } ∧ Follows (offerResume n) n := by
  have he : offerResume n = { n with link := { n.link with queue := n.link.queue ++
      [{ telegram := .resume (resumeContent n), restate := false, offerBy := .resume }] } } := by
    rcases hst with ⟨hj, hd⟩ | hb
    · exact offerResume_joined n hj hd hl
    · have hmay : mayOffer n (.resume (resumeContent n)) = true := by
        unfold mayOffer
        rw [hb]
        rfl
      unfold offerResume offerAgain
      rw [enqueue_placed n _ false .resume hmay hl]
  refine ⟨he, ?_⟩
  rw [he]
  refine ⟨rfl, rfl, rfl, rfl, .self _, _, rfl, fun _ e hx => ?_⟩
  rw [List.mem_singleton.1 hx]
  rfl

theorem startRestates_follows (n : Node) (hl : n.link.queue.length ≤ 13)
    (hst : isJoined n = true ∧ downQueued n = false ∨ n.st = .benched) :
    Follows (startRestates n) n ∧ (startRestates n).link.queue.length ≤ n.link.queue.length + 3 := by
  rcases hst with ⟨hj, hd⟩ | hb
  · obtain ⟨b, h, r, hframe, -⟩ := startRestates_starts n hj hd hl
    have hnb : n.st ≠ .benched := by
      intro hb
      unfold isJoined at hj
      rw [hb] at hj
      cases hj
    have h1 := restateEntry_length .restateBatch b
    have h2 := restateEntry_length .restateHold h
    have h3 := restateEntry_length .restateRoll r
    have hqueue := congrArg (fun m : Node => m.link.queue) hframe
    have hst := congrArg Node.st hframe
    have hpeers := congrArg Node.peers hframe
    have hmark := congrArg Node.benchMark hframe
    have hholds := congrArg (fun m : Node => m.hold.list) hframe
    have hport := congrArg Node.port hframe
    refine ⟨⟨hpeers, hst, hmark, hholds, ?_, _, hqueue, fun hb => absurd hb hnb⟩, ?_⟩
    · rw [hport]
      exact .self _
    · dsimp only at hqueue
      rw [hqueue]
      simp only [List.length_append]
      omega
  · have he : startRestates n = n := by
      unfold startRestates isJoined
      rw [hb]
      rfl
    rw [he]
    exact ⟨.self n, Nat.le_add_right _ _⟩

/-! ### The recorded role -/

/-- The joined node `m` that has recorded the sender's role, and nothing else of its peers. -/
structure Recorded (o : Origin) (s : State) (a : Role × Nat) (m : Node) : Prop where
  joined : isJoined m = true
  mark : m.benchMark = s.node.benchMark
  image : m.image = s.node.image
  sending : m.link.sending = false
  queue : m.link.queue = s.node.link.queue
  role : (peerAt m o.sender).role = some a
  others : ∀ k, 1 ≤ k → k ≠ o.sender → peerAt m k = peerAt s.node k
  length : m.peers.length = 31

theorem joinHeard_recorded (o : Origin) (s : State) (p : JoinPayload) (hh : HearsAnother o s) (hj : isJoined s.node = true) :
    Recorded o s (p.role, p.slot) (joinHeard s.node o p) := by
  obtain ⟨hsame, hother⟩ := peerAt_joinHeard s.node o p hh.2.2.2.1 hh.2.2.2.2.2
  have hframe := joinHeard_frame s.node o p
  have hlen : (joinHeard s.node o p).peers.length = 31 := (setPeer_length _ _ _).trans hh.2.2.2.2.2
  refine ⟨?_, ?_, ?_, ?_, ?_, by rw [hsame]; rfl, hother, hlen⟩
  · unfold isJoined
    rw [hframe]
    exact hj
  all_goals rw [hframe]
  · exact hh.2.1
  · rfl

theorem roleHeard_recorded (o : Origin) (s : State) (p : ResumePayload) (hh : HearsAnother o s) (hj : isJoined s.node = true) :
    Recorded o s (p.role, p.slot) (roleHeard s.node o p) := by
  obtain ⟨hrole, -, hother, hlen⟩ := peerAt_roleHeard o s p hh
  have hframe := roleHeard_frame s.node o p
  refine ⟨?_, ?_, ?_, ?_, ?_, hrole, hother, hlen⟩
  · unfold isJoined
    rw [hframe]
    exact hj
  all_goals rw [hframe]
  · exact hh.2.1
  · rfl

/-- What a conflict leaves at the end of the frame, `b` being the station that it benches. -/
def BenchedBy (o : Origin) (s : State) (a : Role × Nat) (b : Nat) (n : Node) : Prop :=
  (peerAt n b).state = .benched ∧ (peerAt n o.sender).role = some a ∧
  (∀ h ∈ n.hold.list, h.station = b → h.last.isSome = true) ∧
  (∀ j, 1 ≤ j → j ≠ o.sender → j ≠ b → peerAt n j = peerAt s.node j) ∧
  (b ≠ (cfg s.node).station → n.st = .joined ∧ n.benchMark = s.node.benchMark) ∧
  (b = (cfg s.node).station → n.st = .benched ∧ n.benchMark = true ∧ n.port.attention &&& attNode = attNode ∧
    ∀ e ∈ n.link.queue, benchedKind e.telegram = true)

theorem benchedBy_of (o : Origin) (s : State) (a : Role × Nat) (b : Nat) (m c n : Node) (hk : 1 ≤ o.sender) (hm : Recorded o s a m)
    (hc : BenchedAt b c m) (hn : Follows n c) : BenchedBy o s a b n := by
  have hat : ∀ k, peerAt n k = peerAt c k := by
    intro k
    unfold peerAt
    rw [hn.peers]
  have hcfg : cfg m = cfg s.node := cfg_of_image hm.image
  have hother := hc.other
  have hself := hc.self
  rw [hcfg] at hother hself
  refine ⟨(congrArg Peer.state (hat b)).trans hc.state, ?_, ?_, fun j h1 hne hnb => ?_, fun hne => ?_, fun he => ?_⟩
  · rw [hat]
    by_cases hb : o.sender = b
    · rw [hb, hc.role, ← hb, hm.role]
    · rw [hc.others _ hk hb, hm.role]
  · rw [hn.holds]
    exact hc.closed
  · rw [hat, hc.others j h1 hnb, hm.others j h1 hne]
  · obtain ⟨hst, hmark, -⟩ := hother hne
    exact ⟨(hn.st.trans hst).trans (by simpa [isJoined] using hm.joined), (hn.mark.trans hmark).trans hm.mark⟩
  · obtain ⟨hst, hmark, hatt, hkinds, -⟩ := hself he
    obtain ⟨more, hqueue, hmore⟩ := hn.queue
    refine ⟨hn.st.trans hst, hn.mark.trans hmark, hn.port.cause attNode hatt, fun e hx => ?_⟩
    rw [hqueue] at hx
    rcases List.mem_append.1 hx with h | h
    · exact hkinds e h
    · exact hmore hst e h

/-- R194: the benching leaves the node joined with its queue, or benched with what a benched node sends. -/
theorem benchedAt_goes_on (o : Origin) (s : State) (a : Role × Nat) (b : Nat) (m c : Node) (hm : Recorded o s a m)
    (hc : BenchedAt b c m) (hq : s.node.link.queue.length < 10) (hd : downQueued s.node = false) :
    c.link.queue.length < 10 ∧ (isJoined c = true ∧ downQueued c = false ∨ c.st = .benched) := by
  by_cases hb : b = (cfg m).station
  · obtain ⟨hst, -, -, -, hlen⟩ := hc.self hb
    rw [hm.queue] at hlen
    exact ⟨Nat.lt_of_le_of_lt hlen hq, Or.inr hst⟩
  · obtain ⟨hst, -, hlink⟩ := hc.other hb
    refine ⟨by rw [hlink, hm.queue]; exact hq, Or.inl ⟨?_, ?_⟩⟩
    · have hj := hm.joined
      unfold isJoined at hj ⊢
      rw [hst]
      exact hj
    · unfold downQueued at hd ⊢
      rw [hlink, hm.queue]
      exact hd

theorem join_follows (c : Node) (hl : c.link.queue.length < 10)
    (hst : isJoined c = true ∧ downQueued c = false ∨ c.st = .benched) :
    Follows (holdSettle (clearFrame (startRestates (offerResume c)))) c ∧
      ∃ e ∈ (holdSettle (clearFrame (startRestates (offerResume c)))).link.queue, ∃ r, e.telegram = .resume r := by
  obtain ⟨heq, hoffer⟩ := offerResume_follows c (by omega) hst
  have hqueue := congrArg (fun m : Node => m.link.queue) heq
  dsimp only at hqueue
  have hlen : (offerResume c).link.queue.length ≤ 10 := by
    rw [hqueue, List.length_append]
    exact hl
  have hnext : isJoined (offerResume c) = true ∧ downQueued (offerResume c) = false ∨ (offerResume c).st = .benched := by
    rcases hst with ⟨hj, hd⟩ | hb
    · refine Or.inl ⟨?_, ?_⟩
      · unfold isJoined at hj ⊢
        rw [hoffer.st]
        exact hj
      · rw [heq]
        refine downQueued_append c _ _ rfl hd fun e he => ?_
        rw [List.mem_singleton.1 he]
        rfl
    · exact Or.inr (hoffer.st.trans hb)
  obtain ⟨hstart, hslen⟩ := startRestates_follows (offerResume c) (by omega) hnext
  have hstate : (startRestates (offerResume c)).st = .joined ∨ (startRestates (offerResume c)).st = .benched := by
    rw [hstart.st]
    exact hnext.imp (fun h => by simpa [isJoined] using h.1) id
  have hsettle := settled_follows (startRestates (offerResume c)) hstate (by omega)
  have hboth := hsettle.trans hstart
  refine ⟨hboth.trans hoffer, { telegram := .resume (resumeContent c), restate := false, offerBy := .resume }, ?_, _, rfl⟩
  obtain ⟨more, hmore, -⟩ := hboth.queue
  rw [hmore, hqueue]
  simp

theorem conflictsBenchTheHigherStation : Claims.ConflictsBenchTheHigherStation := by
  intro o s c role slot k q hh hj hq hd hkind h1 h31 hne hrole hlearnt hnb hconf hno b
  obtain ⟨hs1, hs31⟩ := wfStation_bounds hh.2.2.2.1
  have hb : wfStation b = true := by
    have hb1 : 1 ≤ b := Nat.le_trans hs1 (Nat.le_max_left _ _)
    have hb31 : b ≤ 31 := Nat.max_le.2 ⟨hs31, h31⟩
    unfold wfStation
    simp [hb1, hb31]
  have hbench : ∀ m, Recorded o s (role, slot) m → BenchedAt b (checkConflict m o.sender) m := by
    intro m hm
    have hk := hm.others k h1 hne
    rw [checkConflict_one m o.sender k (role, slot) q hm.role h1 h31 hne (by rw [hk]; exact hrole) (by rw [hk]; exact hlearnt)
      (by rw [hk]; exact hnb) hconf fun i hi1 hi31 his hik r hr => hno i hi1 hi31 his hik r (by
        rw [← hm.others i hi1 his]
        exact hr)]
    exact benchStation_benched m b hm.joined hm.sending hb hm.length
  refine after_meaning ?_
  rcases hkind with ⟨p, rfl, rfl, rfl⟩ | ⟨p, rfl, rfl, rfl⟩
  · have hm := joinHeard_recorded o s p hh hj
    have hc := hbench _ hm
    obtain ⟨hlen, hst⟩ := benchedAt_goes_on o s _ b _ _ hm hc hq hd
    obtain ⟨hfollows, hresume⟩ := join_follows _ hlen hst
    rw [join_meaning o s p hh]
    obtain ⟨r1, r2, r3, r4, r5, r6⟩ := benchedBy_of o s _ b _ _ _ hs1 hm hc hfollows
    exact ⟨r1, r2, r3, r4, r5, r6, fun _ => hresume⟩
  · have hm := roleHeard_recorded o s p hh hj
    have hc := hbench _ hm
    obtain ⟨hlen, hst⟩ := benchedAt_goes_on o s _ b _ _ hm hc hq hd
    have hnumbers : Follows (if s.node.link.resume.isSome then
        resumeNumbers (checkConflict (roleHeard s.node o p) o.sender) p
        else checkConflict (roleHeard s.node o p) o.sender) (checkConflict (roleHeard s.node o p) o.sender) := by
      split
      · rw [resumeNumbers_eq]
        exact ⟨rfl, rfl, rfl, rfl, .self _, [], by rw [List.append_nil]; rfl, fun _ e he => by cases he⟩
      · exact .self _
    have hqueue : (if s.node.link.resume.isSome then
        resumeNumbers (checkConflict (roleHeard s.node o p) o.sender) p
        else checkConflict (roleHeard s.node o p) o.sender).link.queue =
        (checkConflict (roleHeard s.node o p) o.sender).link.queue := by
      split
      · rw [resumeNumbers_eq]
        rfl
      · rfl
    have hstate := hst.imp (fun h => (by simpa [isJoined] using h.1 :
      (checkConflict (roleHeard s.node o p) o.sender).st = .joined)) id
    rw [← hnumbers.st] at hstate
    rw [resume_meaning o s p hh]
    have hsettle := settled_follows _ hstate (by rw [hqueue]; omega)
    obtain ⟨r1, r2, r3, r4, r5, r6⟩ := benchedBy_of o s _ b _ _ _ hs1 hm hc (hsettle.trans hnumbers)
    exact ⟨r1, r2, r3, r4, r5, r6, fun h => by obtain ⟨p', hp'⟩ := h; cases hp'⟩

/-- Settles O38: the JOIN and the RESUME in no conflict by what they write alone; a conflict by the one station that it benches and
what follows the benching; the own JOIN by the entry that it writes. -/
theorem joinAndResumeTeachPeers : Obligations.JoinAndResumeTeachPeers :=
  ⟨joinReplacesTheEntry, resumeTeachesRoleAndNumbers, conflictsBenchTheHigherStation, joinsStartTheRestates, ownJoinsLetTheNodeIn⟩

end Sys2Proof.Proofs
end
